-- ==== Sys2Proof/Word.lean ====
section
/-! DEFINITION. The two words of the block (spec/00_scope.md R6, R10): a byte, and a word of W = 16 bits.
All quantities are unsigned. -/

namespace Sys2Proof

/-- A command code or a reply byte (R51, R71). -/
abbrev Byte := BitVec 8

/-- A W = 16 bit unsigned quantity: FDUR, FCNT and the request's value field (R6). -/
abbrev Word := BitVec 16

end Sys2Proof
end

