-- ==== Sys2Proof/Config.lean ====
section
/-! DEFINITION. The block's parameters (spec/00_scope.md R6), as data: every rule holds for every admissible
value. The values R6 gives stand in Decode.lean (the codes) and Machine/Regs.lean (the rest). -/

namespace Sys2Proof

/-- CMD_CODE: the code of each of the seven commands (R6, R75). -/
structure CmdCode where
  trigger         : Byte
  flashAndTrigger : Byte
  lightOn         : Byte
  lightOff        : Byte
  lightState      : Byte
  flashTimeSet    : Byte
  flashTimeGet    : Byte
  deriving DecidableEq, Repr

/-- The seven codes, in the order of the command table (R74). -/
def CmdCode.toList (c : CmdCode) : List Byte :=
  [c.trigger, c.flashAndTrigger, c.lightOn, c.lightOff, c.lightState, c.flashTimeSet, c.flashTimeGet]

/-- The parameters of R6, each under the spec's name. W = 16 is the width of `Word`. -/
structure Params where
  /-- FDUR_RESET, the value of FDUR after reset. -/
  fdurReset : Word
  /-- TICK_MS, the nominal period of the tick. -/
  tickMs : Nat
  /-- HOLD_MS, the fixed width of the trigger pulse. -/
  holdMs : Nat
  /-- CLK_PER_MS, clock cycles per millisecond; OPEN. -/
  clkPerMs : Nat
  /-- POLL_LATENCY, extra cycles between the assertion of the trigger line and the start of the hold. -/
  pollLatency : Nat
  /-- FLASH_ACTIVE_HIGH, the polarity of the flash pin; OPEN. -/
  flashActiveHigh : Bool
  /-- TRIG_ACTIVE_HIGH, the polarity of the trigger pin; OPEN. -/
  trigActiveHigh : Bool
  /-- CMD_CODE, the code assignment. -/
  cmdCode : CmdCode
  deriving DecidableEq, Repr

end Sys2Proof
end

