-- ==== Sys2Proof/Syntax.lean ====
section
/-! DEFINITION. Requests, commands and replies (spec/30_encoding.md). A command is the block's instruction;
`Instr` has one constructor per row of the command table (R74). -/

namespace Sys2Proof

/-- The one request format REQ (R70): an 8-bit command code and a 16-bit value. -/
structure Request where
  cmd   : Byte
  value : Word
  deriving DecidableEq, Repr

/-- A decoded request: one constructor per row of R74. Each carries the request's value field, so that
decoding drops no bit; only FLASH_TIME_SET uses it, the others ignore it (R72). -/
inductive Instr where
  /-- TRIGGER (R90). -/
  | trigger (value : Word)
  /-- FLASH_AND_TRIGGER (R92). -/
  | flashAndTrigger (value : Word)
  /-- LIGHT_ON (R100). -/
  | lightOn (value : Word)
  /-- LIGHT_OFF (R101). -/
  | lightOff (value : Word)
  /-- LIGHT_STATE (R102). -/
  | lightState (value : Word)
  /-- FLASH_TIME_SET (R110); `value` is its operand. -/
  | flashTimeSet (value : Word)
  /-- FLASH_TIME_GET (R112). -/
  | flashTimeGet (value : Word)
  /-- UNKNOWN, any reserved code (R120). -/
  | unknown (cmd : Byte) (value : Word)
  deriving DecidableEq, Repr

/-- The one reply format RSP (R12, R71): 0, 1 or 2 bytes, the first byte of the payload first. -/
inductive Reply where
  /-- `reply([])`. -/
  | empty
  /-- `reply([b0])`. -/
  | one (b0 : Byte)
  /-- `reply([b0, b1])`. -/
  | two (b0 b1 : Byte)
  deriving DecidableEq, Repr

end Sys2Proof
end

