-- ==== Sys2Proof/WellFormed.lean ====
section
/-! DEFINITION. Which parameters are admissible (spec/00_scope.md R6) and which instructions stand for a
request (spec/30_encoding.md R74 to R76). -/

namespace Sys2Proof

/-- What the source fixes of CMD_CODE (R75): seven defined codes, exactly the values 0x01 to 0x07. -/
def CmdCode.wf (c : CmdCode) : Bool :=
  c.toList.isPerm [0x01, 0x02, 0x03, 0x04, 0x05, 0x06, 0x07]

/-- The admissible parameters (R6): CLK_PER_MS at least 1, the two durations at least 1 ms, legal codes. -/
abbrev Params.wf (p : Params) : Prop :=
  1 ≤ p.clkPerMs ∧ 1 ≤ p.tickMs ∧ 1 ≤ p.holdMs ∧ p.cmdCode.wf = true

/-- UNKNOWN stands only for a code that is none of the seven (R120); every other instruction is
well-formed with any value (R72, R76). -/
def Instr.wf (c : CmdCode) : Instr → Bool
  | .unknown cmd _      => !c.toList.contains cmd
  | .trigger _          => true
  | .flashAndTrigger _  => true
  | .lightOn _          => true
  | .lightOff _         => true
  | .lightState _       => true
  | .flashTimeSet _     => true
  | .flashTimeGet _     => true

end Sys2Proof
end

