-- ==== Sys2Proof/Decode.lean ====
section
/-! DEFINITION. Decoding and encoding of requests (spec/30_encoding.md). Decoding looks at the code only,
is total and never faults (R73). -/

namespace Sys2Proof

/-- The values R6 gives CMD_CODE (R74, R75; the spec's decision D1, log 4). -/
def specCmdCode : CmdCode where
  trigger         := 0x01
  flashAndTrigger := 0x02
  lightOn         := 0x03
  lightOff        := 0x04
  lightState      := 0x05
  flashTimeSet    := 0x06
  flashTimeGet    := 0x07

/-- Decoding of a request under a code assignment: the seven rows first, then UNKNOWN (R73, R74, R80). -/
def decode (c : CmdCode) (q : Request) : Instr :=
  if q.cmd = c.trigger then .trigger q.value
  else if q.cmd = c.flashAndTrigger then .flashAndTrigger q.value
  else if q.cmd = c.lightOn then .lightOn q.value
  else if q.cmd = c.lightOff then .lightOff q.value
  else if q.cmd = c.lightState then .lightState q.value
  else if q.cmd = c.flashTimeSet then .flashTimeSet q.value
  else if q.cmd = c.flashTimeGet then .flashTimeGet q.value
  else .unknown q.cmd q.value

/-- The request of the 24-bit request word: `cmd` in bits 23:16, `value` in bits 15:0 (R70). -/
def requestOfWord (w : BitVec 24) : Request where
  cmd   := w.extractLsb' 16 8
  value := w.extractLsb' 0 16

/-- Decoding of a request word under a code assignment (R70, R73). -/
def decodeWord (c : CmdCode) (w : BitVec 24) : Instr := decode c (requestOfWord w)

/-- Why a number is no request: it does not fit the 24-bit request word. No request is rejected (R73). -/
inductive DecodeError where
  | widerThanRequestWord
  deriving DecidableEq, Repr

/-- The 24-bit request word of a number, rejected by name where the number is wider (R70). -/
def requestWordOfNat (w : Nat) : Except DecodeError (BitVec 24) :=
  if w < 2 ^ 24 then .ok (BitVec.ofNat 24 w) else .error .widerThanRequestWord

/-- Decoding of a request word given as a number. -/
def decodeNat (c : CmdCode) (w : Nat) : Except DecodeError Instr :=
  match requestWordOfNat w with
  | .ok b    => .ok (decodeWord c b)
  | .error e => .error e

/-- What the decoder reads from a word numbered as spec/opcode_table.json numbers it: the request word of
R70 itself, `nbits` of it given and the bits above zero. -/
def decodeTableWord (nbits w : Nat) : Option Instr :=
  (decodeNat specCmdCode (w % 2 ^ nbits)).toOption

/-- The code of an instruction's request (R74; for UNKNOWN, the code it carries). -/
def Instr.code (c : CmdCode) : Instr → Byte
  | .trigger _          => c.trigger
  | .flashAndTrigger _  => c.flashAndTrigger
  | .lightOn _          => c.lightOn
  | .lightOff _         => c.lightOff
  | .lightState _       => c.lightState
  | .flashTimeSet _     => c.flashTimeSet
  | .flashTimeGet _     => c.flashTimeGet
  | .unknown cmd _      => cmd

/-- The value field of an instruction's request (R70). -/
def Instr.value : Instr → Word
  | .trigger value          => value
  | .flashAndTrigger value  => value
  | .lightOn value          => value
  | .lightOff value         => value
  | .lightState value       => value
  | .flashTimeSet value     => value
  | .flashTimeGet value     => value
  | .unknown _ value        => value

/-- The request that stands for an instruction. -/
def encode (c : CmdCode) (i : Instr) : Request where
  cmd   := i.code c
  value := i.value

/-- `REQ = {req_cmd, req_value}` (R70). -/
def Request.word (q : Request) : BitVec 24 := q.cmd ++ q.value

/-- The request word of an instruction. -/
def encodeWord (c : CmdCode) (i : Instr) : BitVec 24 := (encode c i).word

end Sys2Proof
end

