-- ==== Sys2Proof/Machine/Regs.lean ====
section
/-! DEFINITION. The event-level state (spec/10_state.md R20): the six registers and their reset values, the
values spec/00_scope.md R6 gives the parameters, and one sample of the input ports (R30). -/

namespace Sys2Proof.Machine

/-- The six registers, the whole architectural state of the event level (R20). -/
structure Regs where
  /-- FDUR, flash duration (R21). -/
  fdur  : Word
  /-- FCNT, flash countdown (R22). -/
  fcnt  : Word
  /-- LAMP, lamp state (R23). -/
  lamp  : Bool
  /-- TARM, timer armed (R24). -/
  tarm  : Bool
  /-- TRIG, trigger output line: false is IDLE, true is ASSERTED (R25). -/
  trig  : Bool
  /-- FLASH, flash output line (R26). -/
  flash : Bool
  deriving DecidableEq, Repr

/-- The reset values of the six registers (R39, R190). -/
def resetRegs (p : Params) : Regs where
  fdur  := p.fdurReset
  fcnt  := 0
  lamp  := false
  tarm  := false
  trig  := false
  flash := false

/-- The parameter values of R6. DESIGN CHOICE, unsafe (log 3): the OPEN ones, CLK_PER_MS and the two
polarities, are given the values 1, true, true; no statement rests on them. -/
def specParams : Params where
  fdurReset       := 500
  tickMs          := 1
  holdMs          := 30
  clkPerMs        := 1
  pollLatency     := 0
  flashActiveHigh := true
  trigActiveHigh  := true
  cmdCode         := specCmdCode

/-- The levels of the input ports during one cycle (R30). -/
structure PortIn where
  rst      : Bool
  reqValid : Bool
  reqCmd   : Byte
  reqValue : Word
  deriving DecidableEq, Repr

/-- No reset and no request presented. -/
def idlePorts : PortIn := ⟨false, false, 0, 0⟩

/-- A request presented, no reset. -/
def presenting (q : Request) : PortIn := ⟨false, true, q.cmd, q.value⟩

/-- Reset pulled, no request presented. -/
def resetting : PortIn := ⟨true, false, 0, 0⟩

end Sys2Proof.Machine
end

