-- ==== Sys2Proof/Machine/State.lean ====
section
/-! DEFINITION. The clocked-level state (spec/10_state.md R20, R37, R38), the ports a step reads and drives
(R30) and the parameters (spec/00_scope.md R6), as plain data; the reasons a step can stop. -/

namespace Sys2Proof.Machine

/-- The machine between two rising edges of `clk`. The first three fields are the spec's eight registers;
the last three are the model's own, since `step` takes and gives nothing but a state. -/
structure State where
  /-- The six architectural registers (R20). -/
  regs   : Regs
  /-- PRE, the tick prescaler (R37). -/
  pre    : Nat
  /-- HCNT, the hold counter (R38). -/
  hcnt   : Nat
  /-- DESIGN CHOICE (log 2): the reply driven on the reply port in the cycle that the last step ended (R32);
  none where no request was accepted in it. -/
  reply  : Option Reply
  /-- DESIGN CHOICE (log 1): the levels of the input ports, cycle by cycle, the present cycle's first; ports
  past the end are idle. -/
  inputs : List PortIn
  /-- DESIGN CHOICE (log 3): the parameters of R6, which no step changes. -/
  params : Params
  deriving DecidableEq, Repr

/-- The machine right after reset under given parameters (R39). -/
def State.resetWith (p : Params) : State where
  regs   := resetRegs p
  pre    := 0
  hcnt   := 0
  reply  := none
  inputs := []
  params := p

/-- The machine right after reset (R39), under the parameter values of `specParams` (log 3, log 4). -/
def State.reset : State := State.resetWith specParams

/-- The block raises no exception and is never stuck (R165, R167): there is no fault. Safe: nothing raises one. -/
inductive Fault where
  deriving DecidableEq, Repr

/-- Reasons to refuse. -/
inductive Refusal where
  /-- Raised by an arm of `exec` whose instruction has no meaning; no arm raises it. Safe: the model stops. -/
  | notModelled (mnemonic : String)
  deriving DecidableEq, Repr

end Sys2Proof.Machine
end

