-- ==== Sys2Proof/Machine/Operands.lean ====
section
/-! DEFINITION. Every operand form (spec/30_encoding.md R72: there is one, the value field) and every reply
payload (R71, spec/20_memory.md R52). -/

namespace Sys2Proof.Machine

/-- The operand of FLASH_TIME_SET: the value field, unscaled, unshifted, not extended (R72). -/
def valueOperand (value : Word) : Word := value

/-- Bits 15:8 of a 16-bit quantity. -/
def highByte (w : Word) : Byte := w.extractLsb' 8 8

/-- Bits 7:0 of a 16-bit quantity. -/
def lowByte (w : Word) : Byte := w.extractLsb' 0 8

/-- The 2-byte reply of a 16-bit quantity, big-endian (R52, R112). -/
def bigEndianReply (w : Word) : Reply := .two (highByte w) (lowByte w)

/-- `zext_8` of a flag (R10, R102). -/
def flagByte (b : Bool) : Byte := if b then 0x01 else 0x00

/-- The 1-byte reply of a flag (R102). -/
def flagReply (b : Bool) : Reply := .one (flagByte b)

/-- The payload as a byte list (R71). -/
def replyBytes : Reply → List Byte
  | .empty      => []
  | .one b0     => [b0]
  | .two b0 b1  => [b0, b1]

/-- The number of reply bytes the command table gives each row (R74). -/
def expectedReplyLength : Instr → Nat
  | .trigger _          => 0
  | .flashAndTrigger _  => 0
  | .lightOn _          => 0
  | .lightOff _         => 0
  | .lightState _       => 1
  | .flashTimeSet _     => 0
  | .flashTimeGet _     => 2
  | .unknown _ _        => 0

end Sys2Proof.Machine
end

