-- ==== Sys2Proof/Machine/Flags.lean ====
section
/-! DEFINITION. The computed flag values and the zero detect (spec/10_state.md R28, spec/44_timer_tick.md
R125, R131). Every other flag write of the block is a constant. -/

namespace Sys2Proof.Machine

/-- FLASH as LIGHT_OFF writes it: TARM, so the line stays up during a timed pulse (R101). -/
def flashAfterLightOff (r : Regs) : Bool := r.tarm

/-- FLASH as the expiring TICK writes it: LAMP, so the line stays up while the lamp holds it (R125). -/
def flashAtExpiry (r : Regs) : Bool := r.lamp

/-- The countdown after a TICK: one less, and 0 stays 0, never wrapping (R125, R127, R131; log 7). -/
def countDown (fcnt : Word) : Word := if fcnt = 0 then fcnt else fcnt - 1

/-- The zero detect: exact equality with 0 (R131). -/
def zeroDetect (fcnt : Word) : Bool := fcnt == 0

/-- Whether a TICK in these registers is the expiry (R16, R125). -/
def expires (r : Regs) : Bool := zeroDetect (countDown r.fcnt)

end Sys2Proof.Machine
end

