-- ==== Sys2Proof/Machine/Ops.lean ====
section
/-! DEFINITION. The shared operations: TICK (the handler of the one interrupt, spec/60_exceptions.md R168,
R172), RELEASE, RESET, and the carrying out of a command at the command port. -/

namespace Sys2Proof.Machine

/-- TICK on the registers (R125). It is also the whole of taking the tick interrupt: no state is saved, no
vector gone through, and there is nothing to return from (R172, R173). -/
def tick (r : Regs) : Regs :=
  if expires r then
    { r with fcnt := countDown r.fcnt, flash := flashAtExpiry r, tarm := false }
  else
    { r with fcnt := countDown r.fcnt }

/-- RELEASE on the registers (R135). -/
def release (r : Regs) : Regs := { r with trig := false }

/-- RESET of all eight registers (R39, R190); no reply is driven (R153). -/
def resetRegisters (s : State) : State :=
  { s with regs := resetRegs s.params, pre := 0, hcnt := 0, reply := none }

/-- The reply port driven or not (R32). -/
def withReply (s : State) (r : Option Reply) : State := { s with reply := r }

/-- One CMD operation as an atomic transition: the registers it leaves and the one reply it gives, both
computed from the registers before it (R11, R12, R56). -/
def commitCommand (op : Regs → Regs × Reply) (s : State) : State :=
  { s with regs := (op s.regs).1, reply := some (op s.regs).2 }

/-- Arming restarts the tick period: `PRE <- 0` (R92, R148). -/
def restartTickPeriod (s : State) : State := { s with pre := 0 }

/-- `requires TRIG == 0` (R12, R31): at an open port the command happens whole. At a closed port it has no
step: it is no error, nothing changes and no reply is given. DESIGN CHOICE, safe (log 5): the outcome of no
step is the state as it was; `step` never asks for it. -/
def whenPortOpen (s performed : State) : Host.Outcome State Fault Refusal :=
  if s.regs.trig then .next (withReply s none) else .next performed

end Sys2Proof.Machine
end

