-- ==== Sys2Proof/Machine/Duration.lean ====
section
/-! DEFINITION. The duration commands (spec/42_duration_commands.md): FLASH_TIME_SET and FLASH_TIME_GET. -/

namespace Sys2Proof.Machine

/-- FLASH_TIME_SET on the registers (R110): no value is rejected, clamped or rounded. -/
def opFlashTimeSet (value : Word) (r : Regs) : Regs × Reply :=
  ({ r with fdur := valueOperand value }, .empty)

/-- FLASH_TIME_GET on the registers (R112): the configured duration, never the countdown (R113). -/
def opFlashTimeGet (r : Regs) : Regs × Reply := (r, bigEndianReply r.fdur)

/-- FLASH_TIME_SET (R110, R111). -/
def execFlashTimeSet (value : Word) (s : State) : Host.Outcome State Fault Refusal :=
  whenPortOpen s (commitCommand (opFlashTimeSet value) s)

/-- FLASH_TIME_GET (R112, R113). -/
def execFlashTimeGet (_value : Word) (s : State) : Host.Outcome State Fault Refusal :=
  whenPortOpen s (commitCommand opFlashTimeGet s)

end Sys2Proof.Machine
end

