-- ==== Sys2Proof/Machine/Lamp.lean ====
section
/-! DEFINITION. The lamp commands (spec/41_lamp_commands.md): LIGHT_ON, LIGHT_OFF and LIGHT_STATE. -/

namespace Sys2Proof.Machine

/-- LIGHT_ON on the registers (R100). -/
def opLightOn (r : Regs) : Regs × Reply := ({ r with lamp := true, flash := true }, .empty)

/-- LIGHT_OFF on the registers (R101; conflict C5: the test is on TARM). -/
def opLightOff (r : Regs) : Regs × Reply :=
  ({ r with lamp := false, flash := flashAfterLightOff r }, .empty)

/-- LIGHT_STATE on the registers (R102; conflict C4: the reply is the line, not the lamp flag). -/
def opLightState (r : Regs) : Regs × Reply := (r, flagReply r.flash)

/-- LIGHT_ON (R100). -/
def execLightOn (_value : Word) (s : State) : Host.Outcome State Fault Refusal :=
  whenPortOpen s (commitCommand opLightOn s)

/-- LIGHT_OFF (R101). -/
def execLightOff (_value : Word) (s : State) : Host.Outcome State Fault Refusal :=
  whenPortOpen s (commitCommand opLightOff s)

/-- LIGHT_STATE (R102). -/
def execLightState (_value : Word) (s : State) : Host.Outcome State Fault Refusal :=
  whenPortOpen s (commitCommand opLightState s)

end Sys2Proof.Machine
end

