-- ==== Sys2Proof/Machine/Trigger.lean ====
section
/-! DEFINITION. The trigger commands (spec/40_trigger_commands.md): TRIGGER and FLASH_AND_TRIGGER. -/

namespace Sys2Proof.Machine

/-- TRIGGER on the registers (R90). -/
def opTrigger (r : Regs) : Regs × Reply := ({ r with trig := true }, .empty)

/-- FLASH_AND_TRIGGER on the registers (R92): the atomic arm of the timer (R60). -/
def opFlashAndTrigger (r : Regs) : Regs × Reply :=
  ({ r with fcnt := r.fdur, flash := true, tarm := true, trig := true }, .empty)

/-- TRIGGER (R90, R91). -/
def execTrigger (_value : Word) (s : State) : Host.Outcome State Fault Refusal :=
  whenPortOpen s (commitCommand opTrigger s)

/-- FLASH_AND_TRIGGER (R92 to R94), with the clocked level's `PRE <- 0` (R148). -/
def execFlashAndTrigger (_value : Word) (s : State) : Host.Outcome State Fault Refusal :=
  whenPortOpen s (restartTickPeriod (commitCommand opFlashAndTrigger s))

end Sys2Proof.Machine
end

