-- ==== Sys2Proof/Machine/Unknown.lean ====
section
/-! DEFINITION. The unknown command (spec/43_unknown_command.md): every reserved code. -/

namespace Sys2Proof.Machine

/-- UNKNOWN on the registers (R120): silently ignored, an empty reply. -/
def opUnknown (r : Regs) : Regs × Reply := (r, .empty)

/-- UNKNOWN (R120, R121). -/
def execUnknown (_cmd : Byte) (_value : Word) (s : State) : Host.Outcome State Fault Refusal :=
  whenPortOpen s (commitCommand opUnknown s)

end Sys2Proof.Machine
end

