-- ==== Sys2Proof/Machine/Dispatch.lean ====
section
/-! DEFINITION. The meaning of every instruction, one arm per constructor of `Instr`. -/

namespace Sys2Proof.Machine

def exec (i : Instr) (s : State) : Host.Outcome State Fault Refusal :=
  match i with
  -- the trigger commands (spec/40_trigger_commands.md)
  | .trigger value => Sys2Proof.Machine.execTrigger value s
  | .flashAndTrigger value => Sys2Proof.Machine.execFlashAndTrigger value s
  -- the lamp commands (spec/41_lamp_commands.md)
  | .lightOn value => Sys2Proof.Machine.execLightOn value s
  | .lightOff value => Sys2Proof.Machine.execLightOff value s
  | .lightState value => Sys2Proof.Machine.execLightState value s
  -- the duration commands (spec/42_duration_commands.md)
  | .flashTimeSet value => Sys2Proof.Machine.execFlashTimeSet value s
  | .flashTimeGet value => Sys2Proof.Machine.execFlashTimeGet value s
  -- the unknown command (spec/43_unknown_command.md)
  | .unknown cmd value => Sys2Proof.Machine.execUnknown cmd value s

end Sys2Proof.Machine
end

