-- ==== Sys2Proof/Machine/Event.lean ====
section
/-! DEFINITION. The event level (spec/00_scope.md R8): the six registers change only by the atomic operations
CMD, TICK, RELEASE and RESET, each in a state where it is enabled, in any order and spacing. -/

namespace Sys2Proof.Machine

/-- The operations of the event level (R8, R9). -/
inductive EventOp where
  /-- RESET, performed by the environment (R190). -/
  | reset
  /-- TICK, performed by the timing subsystem (R125). -/
  | tick
  /-- RELEASE, performed by the pulse-width enforcement FSM (R135). -/
  | release
  /-- CMD, performed by the host through the command port. -/
  | cmd (i : Instr)
  deriving DecidableEq, Repr

/-- A CMD operation on the registers: what it leaves and what it replies. -/
def commandOp : Instr → Regs → Regs × Reply
  | .trigger _          => opTrigger
  | .flashAndTrigger _  => opFlashAndTrigger
  | .lightOn _          => opLightOn
  | .lightOff _         => opLightOff
  | .lightState _       => opLightState
  | .flashTimeSet value => opFlashTimeSet value
  | .flashTimeGet _     => opFlashTimeGet
  | .unknown _ _        => opUnknown

/-- The enabling conditions (R31, R128, R135, R190). -/
def eventEnabled : EventOp → Regs → Bool
  | .reset,   _ => true
  | .tick,    r => r.tarm
  | .release, r => r.trig
  | .cmd _,   r => !r.trig

/-- The effect of an operation, and the reply it gives if it is a CMD. -/
def eventEffect (p : Params) : EventOp → Regs → Regs × Option Reply
  | .reset,   _ => (resetRegs p, none)
  | .tick,    r => (tick r, none)
  | .release, r => (release r, none)
  | .cmd i,   r => ((commandOp i r).1, some (commandOp i r).2)

/-- One operation of the event level; none where it is not enabled (no step, R12). -/
def eventStep (p : Params) (op : EventOp) (r : Regs) : Option (Regs × Option Reply) :=
  if eventEnabled op r then some (eventEffect p op r) else none

/-- A run of the event level under a given schedule of operations, with the replies it gives in order; none
where some operation is not enabled where it is taken (R58, U5). -/
def eventRun (p : Params) : List EventOp → Regs → Option (Regs × List Reply)
  | [], r => some (r, [])
  | op :: ops, r =>
    match eventStep p op r with
    | none => none
    | some (r', rep) =>
      match eventRun p ops r' with
      | none => none
      | some (r'', reps) => some (r'', rep.toList ++ reps)

end Sys2Proof.Machine
end

