-- ==== Sys2Proof/Machine/Outputs.lean ====
section
/-! DEFINITION. The ports as functions of the state: the present cycle's inputs, and the outputs
(spec/10_state.md R30 to R33). -/

namespace Sys2Proof.Machine

/-- The levels of the input ports in the present cycle; idle past the end of the list (log 1). -/
def currentInputs (s : State) : PortIn := s.inputs.headD idlePorts

/-- `req_ready = !TRIG & !rst` (R31, R148). -/
def reqReady (s : State) : Bool := !s.regs.trig && !(currentInputs s).rst

/-- `accept = req_valid & req_ready`, with the request taken (R31, R148). -/
def acceptedRequest (s : State) : Option Request :=
  if (currentInputs s).reqValid && reqReady s then
    some ⟨(currentInputs s).reqCmd, (currentInputs s).reqValue⟩
  else
    none

/-- The command accepted in the present cycle, decoded under CMD_CODE (R73, R148). -/
def acceptedInstr (s : State) : Option Instr :=
  (acceptedRequest s).map (decode s.params.cmdCode)

/-- `rsp_valid` in the cycle the last step ended (R32, R151). -/
def rspValid (s : State) : Bool := s.reply.isSome

/-- `rsp_len` in the cycle the last step ended: 0, 1 or 2 (R32). -/
def rspLen (s : State) : BitVec 2 :=
  match s.reply with
  | none              => 0
  | some .empty       => 0
  | some (.one _)     => 1
  | some (.two _ _)   => 2

/-- `rsp_data` in the cycle the last step ended: the first byte in bits 15:8, unused bytes zero (R32). -/
def rspData (s : State) : Word :=
  match s.reply with
  | none              => 0
  | some .empty       => 0
  | some (.one b0)    => b0 ++ (0 : Byte)
  | some (.two b0 b1) => b0 ++ b1

/-- The electrical level of a line under its polarity (R33). -/
def pinLevel (activeHigh line : Bool) : Bool := if activeHigh then line else !line

/-- `flash_pin` (R33). -/
def flashPin (s : State) : Bool := pinLevel s.params.flashActiveHigh s.regs.flash

/-- `trig_pin` (R33). -/
def trigPin (s : State) : Bool := pinLevel s.params.trigActiveHigh s.regs.trig

end Sys2Proof.Machine
end

