-- ==== Sys2Proof/Machine/Cycle.lean ====
section
/-! DEFINITION. The clocked step (spec/46_clocked_step.md): one cycle of the hardware, its three phases and
the operations it performs. -/

namespace Sys2Proof.Machine

/-- `TICK_CYCLES = TICK_MS * CLK_PER_MS` (R6); it is CLK_PER_MS at the value 1 of TICK_MS. -/
def tickCycles (p : Params) : Nat := p.tickMs * p.clkPerMs

/-- `HOLD_CYCLES = HOLD_MS * CLK_PER_MS + POLL_LATENCY` (R6, R147). -/
def holdCycles (p : Params) : Nat := p.holdMs * p.clkPerMs + p.pollLatency

/-- A TICK is due in this cycle (R146). -/
def tickDue (s : State) : Bool := s.regs.tarm && s.pre == tickCycles s.params - 1

/-- A RELEASE is due in this cycle (R147). -/
def releaseDue (s : State) : Bool := s.regs.trig && s.hcnt == holdCycles s.params - 1

/-- Phase 1, the tick generator (R146). -/
def tickPhase (s : State) : State :=
  if tickDue s then { s with regs := tick s.regs, pre := 0 }
  else if s.regs.tarm then { s with pre := s.pre + 1 }
  else s

/-- Phase 2, the hold counter (R147). It reads TRIG and HCNT, which phase 1 leaves as they stand at the start
of the cycle. -/
def releasePhase (s : State) : State :=
  if releaseDue s then { s with regs := release s.regs, hcnt := 0 }
  else if s.regs.trig then { s with hcnt := s.hcnt + 1 }
  else s

/-- The state in which the cycle's operations happen: this cycle's input sample is consumed and no reply is
driven yet. -/
def beginCycle (s : State) : State := { s with inputs := s.inputs.tail, reply := none }

/-- The state after phases 1 and 2 (R145). -/
def afterPhases (s : State) : State := releasePhase (tickPhase (beginCycle s))

/-- The whole cycle (R145, R150, R153): RESET alone where `rst` is pulled; else TICK if due, RELEASE if due,
then the accepted command, if any, on the state they leave. -/
def cycle (s : State) : Host.Outcome State Fault Refusal :=
  if (currentInputs s).rst then .next (resetRegisters (beginCycle s))
  else
    match acceptedInstr s with
    | some i => exec i (afterPhases s)
    | none   => .next (afterPhases s)

/-- The event-level operations a cycle performs, in phase order (R145, R156). -/
def cycleOps (s : State) : List EventOp :=
  if (currentInputs s).rst then [.reset]
  else
    (if tickDue s then [.tick] else []) ++
    (if releaseDue s then [.release] else []) ++
    (acceptedInstr s).toList.map .cmd

/-- The present cycle's ports set so that they present a request word: what a fetch of one instruction is on
this hardware (log 13). A closed port stays closed. -/
def presentWord (s : State) (w : BitVec 24) : State :=
  { s with inputs := presenting (requestOfWord w) :: s.inputs.tail }

end Sys2Proof.Machine
end

