-- ==== Sys2Proof/Machine/Step.lean ====
section
/-! DEFINITION. One step of the machine: one rising edge of `clk` (spec/46_clocked_step.md R145). -/

namespace Sys2Proof.Machine

/-- One rising edge of `clk` (R145, R150). -/
def step (s : State) : Host.Outcome State Fault Refusal := cycle s

/-- `s` with the request of a table word presented at the command port in the present cycle (log 13). -/
def State.withFetchWord (s : State) (nbits w : Nat) : State :=
  presentWord s (BitVec.ofNat 24 (w % 2 ^ nbits))

end Sys2Proof.Machine
end

