-- ==== Sys2Proof/Machine/Trace.lean ====
section
/-! DEFINITION. Several cycles on end: the state reached, the operations performed and the replies given
(spec/46_clocked_step.md R156). -/

namespace Sys2Proof.Machine

/-- `k` rising edges of `clk`. -/
def runCycles : Nat → State → Host.Outcome State Fault Refusal
  | 0, s => .next s
  | k + 1, s =>
    match step s with
    | .next t    => runCycles k t
    | .fault f   => .fault f
    | .refused f => .refused f

/-- The event-level operations that `k` cycles perform, in order (R156). -/
def runOps : Nat → State → List EventOp
  | 0, _ => []
  | k + 1, s =>
    match step s with
    | .next t    => cycleOps s ++ runOps k t
    | .fault _   => []
    | .refused _ => []

/-- The replies that `k` cycles give, in order. -/
def runReplies : Nat → State → List Reply
  | 0, _ => []
  | k + 1, s =>
    match step s with
    | .next t    => t.reply.toList ++ runReplies k t
    | .fault _   => []
    | .refused _ => []

end Sys2Proof.Machine
end

