-- ==== Sys2Proof/Machine/Program.lean ====
section
/-! DEFINITION. A host that keeps its duties (spec/60_exceptions.md R182, spec/70_reset_and_hazards.md R203),
running a program in the sense of spec/30_encoding.md R79 and spec/95_test_vectors.md Part 3. -/

namespace Sys2Proof.Machine

/-- One line `@n: CMD` of a program: the host presents the request from cycle `n` on until it is accepted. -/
structure Line where
  start : Nat
  instr : Instr
  deriving DecidableEq, Repr

/-- The canonical request of a line: `value` 0 where the command has no argument (R79). -/
def canonicalRequest (c : CmdCode) : Instr → Request
  | .flashTimeSet value  => encode c (.flashTimeSet value)
  | .unknown cmd value   => encode c (.unknown cmd value)
  | .trigger _           => encode c (.trigger 0)
  | .flashAndTrigger _   => encode c (.flashAndTrigger 0)
  | .lightOn _           => encode c (.lightOn 0)
  | .lightOff _          => encode c (.lightOff 0)
  | .lightState _        => encode c (.lightState 0)
  | .flashTimeGet _      => encode c (.flashTimeGet 0)

/-- What the host drives in cycle `n`: the first line not yet accepted, once its cycle has come; `rst` in the
cycles listed. -/
def hostPorts (c : CmdCode) (resetAt : List Nat) (n : Nat) : List Line → PortIn
  | [] => { idlePorts with rst := resetAt.contains n }
  | l :: _ =>
    if l.start ≤ n then { presenting (canonicalRequest c l.instr) with rst := resetAt.contains n }
    else { idlePorts with rst := resetAt.contains n }

/-- The state with the host's ports of cycle `n` driven. -/
def driven (resetAt : List Nat) (n : Nat) (prog : List Line) (s : State) : State :=
  { s with inputs := [hostPorts s.params.cmdCode resetAt n prog] }

/-- The lines left after a cycle: the host takes a line off only when it was accepted (R182). -/
def remaining (prog : List Line) (s : State) : List Line :=
  if (acceptedRequest s).isSome then prog.tail else prog

/-- What the caller may take as the reply to its command: a payload whose byte count is not the command's expected
count is a communication failure, not a partial result (R78, R182). -/
def callerAccepts (i : Instr) (payload : List Byte) : Bool := payload.length == expectedReplyLength i

/-- `k` cycles of the block with that host at its port, from cycle `n` on. -/
def runProgram (resetAt : List Nat) : Nat → Nat → List Line → State → Host.Outcome State Fault Refusal
  | 0, _, _, s => .next s
  | k + 1, n, prog, s =>
    match step (driven resetAt n prog s) with
    | .next t    => runProgram resetAt k (n + 1) (remaining prog (driven resetAt n prog s)) t
    | .fault f   => .fault f
    | .refused f => .refused f

end Sys2Proof.Machine
end

