-- ==== Sys2Proof/Safety.lean ====
section
/-! DEFINITION. The terms the statements use: the spec's invariants, quiescence, runs free of reset and
re-arming, and traces of the event level under weak fairness. -/

namespace Sys2Proof.Machine

/-- `FLASH == (LAMP | TARM)` (R34). -/
def FlashIsLampOrArmed (r : Regs) : Prop := r.flash = (r.lamp || r.tarm)

/-- `FCNT != 0` implies `TARM == 1` (R35). -/
def CountOnlyWhileArmed (r : Regs) : Prop := r.fcnt ≠ 0 → r.tarm = true

/-- The invariants the spec states of every reachable state of the clocked level (R34, R35, R155), under
admissible parameters (R6). -/
structure Inv (s : State) : Prop where
  params  : s.params.wf
  flash   : FlashIsLampOrArmed s.regs
  count   : CountOnlyWhileArmed s.regs
  preLt   : s.pre < tickCycles s.params
  hcntLt  : s.hcnt < holdCycles s.params
  preZero  : s.regs.tarm = false → s.pre = 0
  hcntZero : s.regs.trig = false → s.hcnt = 0

/-- While the timer is armed with a count of 0, the trigger hold of the arming command still runs and has
counted as far as the tick period (R101: the first TICK falls before the port reopens). -/
def ZeroCountInsideHold (s : State) : Prop :=
  s.regs.tarm = true → s.regs.fcnt = 0 → s.regs.trig = true ∧ s.hcnt = s.pre

/-- A quiescent state: TARM and TRIG are 0 and no request is presented (R206). -/
def quiescent (s : State) : Bool :=
  !s.regs.tarm && !s.regs.trig && !(currentInputs s).reqValid

/-- The present cycle accepts a FLASH_AND_TRIGGER. -/
def armsTimer (s : State) : Bool :=
  match acceptedInstr s with
  | some (.flashAndTrigger _) => true
  | _ => false

/-- The present cycle accepts a TRIGGER or a FLASH_AND_TRIGGER. -/
def assertsTrigger (s : State) : Bool :=
  match acceptedInstr s with
  | some (.trigger _) => true
  | some (.flashAndTrigger _) => true
  | _ => false

/-- The present cycle accepts a FLASH_TIME_SET. -/
def setsDuration (s : State) : Bool :=
  match acceptedInstr s with
  | some (.flashTimeSet _) => true
  | _ => false

/-- Each of the `n` cycles from `s` on satisfies `P`. -/
def DuringCycles (n : Nat) (s : State) (P : State → Prop) : Prop :=
  ∀ k, k < n → ∀ u, runCycles k s = .next u → P u

/-- The same instruction with another value field in its request (R72). -/
def withValue (v : Word) : Instr → Instr
  | .trigger _          => .trigger v
  | .flashAndTrigger _  => .flashAndTrigger v
  | .lightOn _          => .lightOn v
  | .lightOff _         => .lightOff v
  | .lightState _       => .lightState v
  | .flashTimeSet _     => .flashTimeSet v
  | .flashTimeGet _     => .flashTimeGet v
  | .unknown cmd _      => .unknown cmd v

/-- A schedule of operations with neither a RESET nor a FLASH_AND_TRIGGER in it. -/
def noResetNoArm (ops : List EventOp) : Bool :=
  ops.all fun op =>
    match op with
    | .reset => false
    | .cmd (.flashAndTrigger _) => false
    | _ => true

/-- An endless trace of the event level: at each instant nothing happens, or one enabled operation does (R8). -/
def EventTrace (p : Params) (σ : Nat → Regs) (op : Nat → Option EventOp) : Prop :=
  ∀ n,
    (op n = none ∧ σ (n + 1) = σ n) ∨
    (∃ o rep, op n = some o ∧ eventStep p o (σ n) = some (σ (n + 1), rep))

/-- Weak fairness of an operation: it is not enabled for ever without being performed (R132, R139, D18). -/
def WeaklyFair (σ : Nat → Regs) (op : Nat → Option EventOp) (o : EventOp) : Prop :=
  ∀ n, ∃ m, n ≤ m ∧ (eventEnabled o (σ m) = false ∨ op m = some o)

end Sys2Proof.Machine
end

