-- ==== Sys2Proof/Certificates/Slice0/Obligations.lean ====
section
/-! DEFINITION. The statements for the provers. "Log n" is notes/assumptions/n.md; "D<n>" is a decision of
spec/92_eei_decisions.md, the spec's own choice and not its source's. -/

open Sys2Proof Sys2Proof.Machine

/-! ## Encoding -/

/-- One request word of each row of the command table, written out from R70 and R74, decodes to that row; the
code numbers are the spec's decision D1 (log 4). The value of FLASH_TIME_SET is the 1200 of the source's
scenario (E3); 0x00, 0x08 and 0xFF are the edges of the reserved codes. -/
def Obligations.TableWordsDecodeToTheirRows : Prop :=
  decodeTableWord 24 0x010000 = some (.trigger 0x0000) ∧
  decodeTableWord 24 0x02FFFF = some (.flashAndTrigger 0xFFFF) ∧
  decodeTableWord 24 0x030000 = some (.lightOn 0x0000) ∧
  decodeTableWord 24 0x040000 = some (.lightOff 0x0000) ∧
  decodeTableWord 24 0x05ABCD = some (.lightState 0xABCD) ∧
  decodeTableWord 24 0x0604B0 = some (.flashTimeSet 1200) ∧
  decodeTableWord 24 0x070000 = some (.flashTimeGet 0x0000) ∧
  decodeTableWord 24 0x000000 = some (.unknown 0x00 0x0000) ∧
  decodeTableWord 24 0x08BEEF = some (.unknown 0x08 0xBEEF) ∧
  decodeTableWord 24 0xFF0000 = some (.unknown 0xFF 0x0000)

/-- Decoding looks at `cmd` only and is total (R73): under every legal code assignment each defined code
decodes to its own command, every other code to UNKNOWN, and the value field never changes which. -/
def Obligations.DecodingLooksAtTheCodeOnly : Prop :=
  ∀ (c : CmdCode), c.wf = true → ∀ (v : Word),
    decode c ⟨c.trigger, v⟩ = .trigger v ∧
    decode c ⟨c.flashAndTrigger, v⟩ = .flashAndTrigger v ∧
    decode c ⟨c.lightOn, v⟩ = .lightOn v ∧
    decode c ⟨c.lightOff, v⟩ = .lightOff v ∧
    decode c ⟨c.lightState, v⟩ = .lightState v ∧
    decode c ⟨c.flashTimeSet, v⟩ = .flashTimeSet v ∧
    decode c ⟨c.flashTimeGet, v⟩ = .flashTimeGet v ∧
    (∀ cmd : Byte, cmd ∉ c.toList → decode c ⟨cmd, v⟩ = .unknown cmd v) ∧
    (∀ (cmd : Byte) (v' : Word), decode c ⟨cmd, v'⟩ = withValue v' (decode c ⟨cmd, v⟩))

/-- Which codes are reserved (R75, R76), under every assignment of the seven codes 0x01 to 0x07: exactly 0x00
and 0x08 to 0xFF. -/
def Obligations.ReservedCodesAreExactlyUnknown : Prop :=
  ∀ (c : CmdCode), c.wf = true → ∀ (cmd : Byte) (v : Word),
    decode c ⟨cmd, v⟩ = .unknown cmd v ↔ cmd = 0x00 ∨ 8 ≤ cmd.toNat

/-- Decoding the encoded request word of a well-formed instruction gives the instruction back, under every
legal code assignment and with every operand at every value; and the encoded word is a request word that
decodes to it as a number too. -/
def Obligations.DecodeOfEncodeIsTheInstruction : Prop :=
  ∀ (c : CmdCode) (i : Instr), c.wf = true → i.wf c = true →
    decodeWord c (encodeWord c i) = i ∧ decodeNat c (encodeWord c i).toNat = .ok i

/-- Every request word decodes to a well-formed instruction whose encoding is that very word, under every
code assignment: none is rejected, and coding loses no bit. That it is exact rests on the model's choice that every
instruction carries the value field, the ignored one too (log 9, DESIGN CHOICE). It is said of the coding only:
two words that differ in an ignored value decode to two terms of Instr, yet are the same command (R72; that they do
the same is ValueFieldIsIgnoredButBySet). -/
def Obligations.EncodeOfDecodeIsTheWord : Prop :=
  ∀ (c : CmdCode) (w : BitVec 24),
    (decodeWord c w).wf c = true ∧ encodeWord c (decodeWord c w) = w

/-! ## A step runs the decoded command -/

/-- When a request is presented at an open port and `rst` is not pulled, the step is `exec` of the decoded
request, on the state that phase 1 leaves of this cycle (R148, R150; the order is the spec's decision D11). The
second part says the same of a word put on the port by `withFetchWord` (log 13). -/
def Obligations.StepRunsTheDecodedRequest : Prop :=
  (∀ (s : State) (cmd : Byte) (value : Word) (rest : List PortIn),
    s.inputs = ⟨false, true, cmd, value⟩ :: rest → s.regs.trig = false →
      step s = exec (decode s.params.cmdCode ⟨cmd, value⟩) (tickPhase { s with inputs := rest, reply := none })) ∧
  (∀ (s : State) (w : BitVec 24), s.regs.trig = false →
      step (s.withFetchWord 24 w.toNat) =
        exec (decodeWord s.params.cmdCode w) (tickPhase { s with inputs := s.inputs.tail, reply := none }))

/-! ## The commands: result, frame and completion

The whole next state is given, so each of these is the frame too: a field not named keeps its value. `reply` is
the model's own field for the reply port (log 2). -/

/-- R90, with its request word 0x01vvvv (D1). TRIGGER writes TRIG and nothing else, and replies no byte. From this
operation on RELEASE is enabled and CMD is not, until RELEASE returns the FSM to IDLE: so it is in every state with
TRIG at 1, RELEASE clears TRIG, and no other operation does but RESET, which is the environment's and not R90's. -/
def Obligations.TriggerAssertsTheTriggerLine : Prop :=
  (∀ (v : Word) (s : State), s.regs.trig = false →
    decodeWord specCmdCode ((0x01 : Byte) ++ v) = .trigger v ∧
    exec (.trigger v) s =
      .next { s with regs := { s.regs with trig := true }, reply := some .empty }) ∧
  (∀ (p : Params) (r : Regs), r.trig = true →
    eventEnabled .release r = true ∧
    (∀ i, eventEnabled (.cmd i) r = false) ∧
    eventStep p .release r = some ({ r with trig := false }, none) ∧
    ∀ op r' rep, eventStep p op r = some (r', rep) → r'.trig = false → op = .release ∨ op = .reset)

/-- R92, with its request word 0x02vvvv (D1). FLASH_AND_TRIGGER copies FDUR into FCNT, asserts both lines, arms
the timer and restarts the tick period (D8); it is the only operation that sets TARM. -/
def Obligations.FlashAndTriggerArmsTheTimer : Prop :=
  (∀ (v : Word) (s : State), s.regs.trig = false →
    decodeWord specCmdCode ((0x02 : Byte) ++ v) = .flashAndTrigger v ∧
    exec (.flashAndTrigger v) s =
      .next { s with
        regs := { s.regs with fcnt := s.regs.fdur, flash := true, tarm := true, trig := true }
        pre := 0
        reply := some .empty }) ∧
  (∀ (p : Params) (op : EventOp) (r r' : Regs) (rep : Option Reply),
    eventStep p op r = some (r', rep) → r.tarm = false → r'.tarm = true →
      ∃ v, op = .cmd (.flashAndTrigger v))

/-- R100, with its code 0x03 (D1). LIGHT_ON writes LAMP and FLASH; a second one changes nothing more; a TICK
after it leaves the line asserted. -/
def Obligations.LightOnSetsLampAndFlash : Prop :=
  ∀ (v : Word) (s : State), s.regs.trig = false →
    decodeWord specCmdCode ((0x03 : Byte) ++ v) = .lightOn v ∧
    ∃ t, exec (.lightOn v) s = .next t ∧
      t = { s with regs := { s.regs with lamp := true, flash := true }, reply := some .empty } ∧
      exec (.lightOn v) t = .next t ∧
      (tick t.regs).flash = true

/-- The operation of R101, with its code 0x04 (D1). LIGHT_OFF clears LAMP and leaves FLASH at TARM: the line
drops unless a timed pulse holds it, and the pulse is not stopped, shortened or disarmed. -/
def Obligations.LightOffDropsTheLineUnlessArmed : Prop :=
  ∀ (v : Word) (s : State), s.regs.trig = false →
    decodeWord specCmdCode ((0x04 : Byte) ++ v) = .lightOff v ∧
    exec (.lightOff v) s =
      .next { s with regs := { s.regs with lamp := false, flash := s.regs.tarm }, reply := some .empty }

/-- The operation of R102, with its code 0x05 (D1). LIGHT_STATE writes no register and replies one byte, 0x01 or
0x00: the flash line, not the lamp flag, which by R34 is `LAMP | TARM`. -/
def Obligations.LightStateReportsTheLine : Prop :=
  ∀ (v : Word) (s : State), s.regs.trig = false →
    decodeWord specCmdCode ((0x05 : Byte) ++ v) = .lightState v ∧
    exec (.lightState v) s =
      .next { s with reply := some (.one (if s.regs.flash = true then 0x01 else 0x00)) } ∧
    (FlashIsLampOrArmed s.regs →
      exec (.lightState v) s =
        .next { s with reply := some (.one (if s.regs.lamp = true ∨ s.regs.tarm = true then 0x01 else 0x00)) })

/-- R110, with its request word {0x06, value} (D1). FLASH_TIME_SET writes FDUR and nothing else, for every one of
the 65536 values; a FLASH_TIME_GET after it yields exactly that value, high byte first. -/
def Obligations.FlashTimeSetWritesTheDuration : Prop :=
  ∀ (v : Word) (s : State), s.regs.trig = false →
    decodeWord specCmdCode ((0x06 : Byte) ++ v) = .flashTimeSet v ∧
    ∃ t, exec (.flashTimeSet v) s = .next t ∧
      t = { s with regs := { s.regs with fdur := v }, reply := some .empty } ∧
      ∀ v', ∃ u hi lo, exec (.flashTimeGet v') t = .next u ∧ u.reply = some (.two hi lo) ∧
        256 * hi.toNat + lo.toNat = v.toNat

/-- R112, with its code 0x07 (D1). FLASH_TIME_GET writes no register and replies FDUR in two bytes, the most
significant first; on the reply port the length is 2 and the data FDUR. -/
def Obligations.FlashTimeGetRepliesTheDuration : Prop :=
  ∀ (v : Word) (s : State), s.regs.trig = false →
    decodeWord specCmdCode ((0x07 : Byte) ++ v) = .flashTimeGet v ∧
    ∃ t, exec (.flashTimeGet v) s = .next t ∧
      t = { s with reply := some (.two (s.regs.fdur.extractLsb' 8 8) (s.regs.fdur.extractLsb' 0 8)) } ∧
      rspLen t = 2 ∧ rspData t = s.regs.fdur

/-- R120. Every code that is none of 0x01 to 0x07 changes no register and replies with no byte. Its request is
accepted and consumes one handshake like any other: presented at an open port it is taken, the step consumes that
cycle's port sample (the list of samples is the model's, log 1) and leaves what the cycle's phase 1 leaves with the
empty reply. While TRIG is 1 it waits like any other: it is not enabled and not taken. -/
def Obligations.UnknownCommandIsSilentlyIgnored : Prop :=
  ∀ (cmd : Byte) (v : Word) (s : State), cmd = 0x00 ∨ 8 ≤ cmd.toNat →
    decode specCmdCode ⟨cmd, v⟩ = .unknown cmd v ∧
    (s.regs.trig = false → exec (.unknown cmd v) s = .next { s with reply := some .empty }) ∧
    (s.regs.trig = true → eventEnabled (.cmd (.unknown cmd v)) s.regs = false) ∧
    (currentInputs s = ⟨false, true, cmd, v⟩ →
      (s.regs.trig = false → acceptedRequest s = some ⟨cmd, v⟩ ∧
        (s.params.cmdCode.wf = true →
          step s = .next { tickPhase { s with inputs := s.inputs.tail, reply := none } with reply := some .empty })) ∧
      (s.regs.trig = true → acceptedRequest s = none ∧ ∃ t, step s = .next t ∧ t.reply = none))

/-- The model's choice for R12's "no step" (log 5): a command asked of `exec` while TRIG is 1 changes nothing and
gives no reply. -/
def Obligations.ClosedPortPerformsNoCommand : Prop :=
  ∀ (i : Instr) (s : State), s.regs.trig = true → exec i s = .next { s with reply := none }

/-- A command other than FLASH_TIME_SET behaves identically whatever its value field (the spec's decision D4). -/
def Obligations.ValueFieldIsIgnoredButBySet : Prop :=
  ∀ (i : Instr) (v : Word) (s : State), (∀ x, i ≠ .flashTimeSet x) → exec (withValue v i) s = exec i s

/-- The reply of every command has the length its row of the command table gives, whatever the state and the
value field (R74, R77); on the reply port that is `rsp_len`; so the caller's check of the byte count (R78) never
fails on a reply as the block gives it. -/
def Obligations.ReplyLengthIsFixedByTheCommand : Prop :=
  ∀ (i : Instr) (s : State), s.regs.trig = false →
    ∃ t r, exec i s = .next t ∧ t.reply = some r ∧
      (replyBytes r).length = expectedReplyLength i ∧ (rspLen t).toNat = expectedReplyLength i ∧
      callerAccepts i (replyBytes r) = true

/-- The frame of every command (the "Writes" clauses of R90 to R120): a register changes only by a command that
the spec lets write it, and no command touches HCNT, the parameters or the ports to come. -/
def Obligations.CommandsWriteOnlyTheirRegisters : Prop :=
  ∀ (i : Instr) (s t : State), exec i s = .next t →
    t.hcnt = s.hcnt ∧ t.inputs = s.inputs ∧ t.params = s.params ∧
    (t.pre ≠ s.pre → ∃ v, i = .flashAndTrigger v) ∧
    (t.regs.fdur ≠ s.regs.fdur → ∃ v, i = .flashTimeSet v) ∧
    (t.regs.fcnt ≠ s.regs.fcnt → ∃ v, i = .flashAndTrigger v) ∧
    (t.regs.tarm ≠ s.regs.tarm → ∃ v, i = .flashAndTrigger v) ∧
    (t.regs.lamp ≠ s.regs.lamp → ∃ v, i = .lightOn v ∨ i = .lightOff v) ∧
    (t.regs.trig ≠ s.regs.trig → ∃ v, i = .trigger v ∨ i = .flashAndTrigger v) ∧
    (t.regs.flash ≠ s.regs.flash → ∃ v, i = .flashAndTrigger v ∨ i = .lightOn v ∨ i = .lightOff v)

/-! ## TICK, RELEASE and RESET -/

/-- TICK at the event level: not enabled while disarmed; while armed it takes one from a non-zero count and never
wraps, expires when the count is then 0, and touches neither FDUR, LAMP nor TRIG. That a count of 0 expires at
once is the spec's decision D7 (log 7). -/
def Obligations.TickCountsDownAndExpiresAtZero : Prop :=
  ∀ (p : Params) (r : Regs),
    (r.tarm = false → eventStep p .tick r = none) ∧
    (r.tarm = true → ∃ r', eventStep p .tick r = some (r', none) ∧
      r'.fcnt.toNat = r.fcnt.toNat - 1 ∧
      r'.fdur = r.fdur ∧ r'.lamp = r.lamp ∧ r'.trig = r.trig ∧
      (2 ≤ r.fcnt.toNat → r'.tarm = true ∧ r'.flash = r.flash) ∧
      (r.fcnt.toNat ≤ 1 → r'.tarm = false ∧ r'.flash = r.lamp))

/-- R135. RELEASE is enabled exactly while TRIG is 1 and writes TRIG only. At the clocked level it also clears HCNT,
whatever the flash side does and whatever request waits, and after it the port is open. -/
def Obligations.ReleaseDropsTheTriggerLine : Prop :=
  (∀ (p : Params) (r : Regs),
    (r.trig = true → eventStep p .release r = some ({ r with trig := false }, none)) ∧
    (r.trig = false → eventStep p .release r = none)) ∧
  (∀ (s : State), (currentInputs s).rst = false → releaseDue s = true →
    ∃ t, step s = .next t ∧
      t = { tickPhase { s with inputs := s.inputs.tail, reply := none } with
            regs := { (tickPhase { s with inputs := s.inputs.tail, reply := none }).regs with trig := false }
            hcnt := 0 } ∧
      ((currentInputs t).rst = false → reqReady t = true))

/-- RESET in the step: whatever the state and whatever is presented, a cycle with `rst` leaves the reset state and
gives no reply; the parameters and the ports of later cycles are not the block's to reset. The values other than
FDUR's, the synchronous style and the cut of a running pulse are the spec's decisions D2, D6 and D21 (log 6). -/
def Obligations.ResetOverridesEverything : Prop :=
  ∀ (s : State) (valid : Bool) (cmd : Byte) (value : Word) (rest : List PortIn),
    s.inputs = ⟨true, valid, cmd, value⟩ :: rest →
      acceptedRequest s = none ∧
      step s = .next
        { regs := ⟨s.params.fdurReset, 0, false, false, false, false⟩
          pre := 0, hcnt := 0, reply := none, inputs := rest, params := s.params }

/-- The state after reset, under any parameters: the registers and counters at the values of R39, the port open, no
reply, both pins at their deasserted level; FDUR is 500 at the value R6 gives FDUR_RESET. The values other than 500
are the spec's derivations and its decision D6 (log 6); the idle ports are the model's (log 1). -/
def Obligations.StateAfterReset : Prop :=
  State.reset.regs.fdur = 500 ∧
  ∀ p : Params,
    (State.resetWith p).regs = ⟨p.fdurReset, 0, false, false, false, false⟩ ∧
    (State.resetWith p).pre = 0 ∧ (State.resetWith p).hcnt = 0 ∧
    reqReady (State.resetWith p) = true ∧ rspValid (State.resetWith p) = false ∧
    flashPin (State.resetWith p) = !p.flashActiveHigh ∧ trigPin (State.resetWith p) = !p.trigActiveHigh

/-! ## One cycle -/

/-- Every step has a next state: there is no fault, no refusal and no stuck state (R165, R167). -/
def Obligations.EveryStepHasANextState : Prop :=
  ∀ s : State, ∃ t, step s = .next t ∧ t.params = s.params ∧ t.inputs = s.inputs.tail

/-- The tick generator over one cycle (R146, R148; the spec's decisions D8 and D13): arming loads the count and
restarts the period; else an armed timer counts the cycle, and every TICK_CYCLES-th one decrements; a disarmed timer
does not move. -/
def Obligations.TickGeneratorCountsCycles : Prop :=
  ∀ s t : State, step s = .next t → (currentInputs s).rst = false →
    (armsTimer s = true → t.pre = 0 ∧ t.regs.fcnt = s.regs.fdur ∧ t.regs.tarm = true) ∧
    (armsTimer s = false → s.regs.tarm = true → s.pre = tickCycles s.params - 1 →
      t.pre = 0 ∧ t.regs.fcnt.toNat = s.regs.fcnt.toNat - 1 ∧
      t.regs.tarm = decide (2 ≤ s.regs.fcnt.toNat)) ∧
    (armsTimer s = false → s.regs.tarm = true → s.pre ≠ tickCycles s.params - 1 →
      t.pre = s.pre + 1 ∧ t.regs.fcnt = s.regs.fcnt ∧ t.regs.tarm = true) ∧
    (armsTimer s = false → s.regs.tarm = false →
      t.pre = s.pre ∧ t.regs.fcnt = s.regs.fcnt ∧ t.regs.tarm = false)

/-- The trigger FSM over one cycle (R136, R147; the spec's decisions D9 and D13): IDLE is left exactly by an accepted
TRIGGER or FLASH_AND_TRIGGER, ASSERTED exactly by the RELEASE of the last hold cycle, and HCNT counts the hold. -/
def Obligations.TriggerFsmTransitions : Prop :=
  ∀ s t : State, step s = .next t → (currentInputs s).rst = false →
    (s.regs.trig = false → t.regs.trig = assertsTrigger s ∧ t.hcnt = s.hcnt) ∧
    (s.regs.trig = true → s.hcnt = holdCycles s.params - 1 → t.regs.trig = false ∧ t.hcnt = 0) ∧
    (s.regs.trig = true → s.hcnt ≠ holdCycles s.params - 1 → t.regs.trig = true ∧ t.hcnt = s.hcnt + 1)

/-- Who writes what (R28, R40): outside reset the lamp flag, the duration and the flash line change in a cycle only by
the operations listed, and in the direction listed. The premise is the invariant of R34. -/
def Obligations.RegistersChangeOnlyByTheirWriters : Prop :=
  ∀ s t : State, step s = .next t → (currentInputs s).rst = false → FlashIsLampOrArmed s.regs →
    (t.regs.lamp ≠ s.regs.lamp →
      (∃ v, acceptedInstr s = some (.lightOn v) ∧ t.regs.lamp = true) ∨
      (∃ v, acceptedInstr s = some (.lightOff v) ∧ t.regs.lamp = false)) ∧
    (t.regs.fdur ≠ s.regs.fdur → ∃ v, acceptedInstr s = some (.flashTimeSet v) ∧ t.regs.fdur = v) ∧
    (s.regs.flash = false → t.regs.flash = true →
      ∃ v, acceptedInstr s = some (.flashAndTrigger v) ∨ acceptedInstr s = some (.lightOn v)) ∧
    (s.regs.flash = true → t.regs.flash = false →
      (s.regs.tarm = true → tickDue s = true ∧ s.regs.fcnt.toNat ≤ 1) ∧
      (s.regs.lamp = true → ∃ v, acceptedInstr s = some (.lightOff v)))

/-- A request presented at a closed port has no effect of any kind and gets no reply (R31, R148, R166): the cycle is
the same as with nothing presented. The closed port is the spec's decision D9. -/
def Obligations.RequestAtAClosedPortHasNoEffect : Prop :=
  ∀ (s : State) (valid : Bool) (cmd : Byte) (value : Word) (rest : List PortIn), s.regs.trig = true →
    step { s with inputs := ⟨false, valid, cmd, value⟩ :: rest } = step { s with inputs := idlePorts :: rest } ∧
    ∃ t, step { s with inputs := ⟨false, valid, cmd, value⟩ :: rest } = .next t ∧ t.reply = none

/-- An expiring TICK and a command in one cycle, the TICK first (the spec's decision D11): a re-arm leaves the timer
armed with the whole new count and the line up; LIGHT_ON keeps the line up; LIGHT_OFF drops it; LIGHT_STATE reports
the line as the TICK leaves it. -/
def Obligations.ExpiryAndCommandInOneCycle : Prop :=
  ∀ (s : State) (i : Instr), (currentInputs s).rst = false → acceptedInstr s = some i →
    tickDue s = true → s.regs.fcnt.toNat ≤ 1 →
    ∃ t, step s = .next t ∧
      ((∃ v, i = .flashAndTrigger v) →
        t.regs = { s.regs with fcnt := s.regs.fdur, tarm := true, flash := true, trig := true } ∧ t.pre = 0) ∧
      ((∃ v, i = .lightOn v) → t.regs = { s.regs with fcnt := 0, tarm := false, lamp := true, flash := true }) ∧
      ((∃ v, i = .lightOff v) → t.regs = { s.regs with fcnt := 0, tarm := false, lamp := false, flash := false }) ∧
      ((∃ v, i = .lightState v) →
        t.regs = { s.regs with fcnt := 0, tarm := false, flash := s.regs.lamp } ∧
        t.reply = some (.one (if s.regs.lamp = true then 0x01 else 0x00)))

/-- The reply port (R32, R151; the packing is the spec's decision D5): a reply is valid exactly in the cycle a request is
accepted; its length is 0, 1 or 2; the payload stands from the high byte down, the rest zero. -/
def Obligations.ReplyPortPacking : Prop :=
  ∀ s t : State, step s = .next t →
    (rspValid t = true ↔ ∃ q, acceptedRequest s = some q) ∧
    (t.reply = none → rspLen t = 0 ∧ rspData t = 0) ∧
    (t.reply = some .empty → rspLen t = 0 ∧ rspData t = 0) ∧
    (∀ b0, t.reply = some (.one b0) → rspLen t = 1 ∧ (rspData t).toNat = 256 * b0.toNat) ∧
    (∀ b0 b1, t.reply = some (.two b0 b1) → rspLen t = 2 ∧ (rspData t).toNat = 256 * b0.toNat + b1.toNat)

/-- R33: each pin is its line, inverted where the line is active low; and that is the only place polarity appears, so a
change of the two polarities goes through a step untouched. -/
def Obligations.PolarityAppearsOnlyAtThePins : Prop :=
  (∀ s : State,
    flashPin s = (s.regs.flash == s.params.flashActiveHigh) ∧
    trigPin s = (s.regs.trig == s.params.trigActiveHigh)) ∧
  (∀ (s t : State) (f g : Bool), step s = .next t →
    step { s with params := { s.params with flashActiveHigh := f, trigActiveHigh := g } } =
      .next { t with params := { t.params with flashActiveHigh := f, trigActiveHigh := g } })

/-! ## Invariants -/

/-- The reset state meets the invariants, under any admissible parameters (R192). -/
def Obligations.ResetStateMeetsTheInvariants : Prop :=
  ∀ (p : Params) (ins : List PortIn), p.wf →
    Inv { State.resetWith p with inputs := ins } ∧ ZeroCountInsideHold { State.resetWith p with inputs := ins }

/-- The invariants of R34, R35 and R155 are kept by every step, whatever the ports. -/
def Obligations.EveryStepKeepsTheInvariants : Prop :=
  ∀ s t : State, Inv s → step s = .next t → Inv t

/-- R101's claim about the clocked level: where the hold is no shorter than a tick period, an armed timer with a count
of 0 is met only inside the hold, so no LIGHT_OFF is accepted in such a state. -/
def Obligations.ZeroCountStaysInsideTheHold : Prop :=
  ∀ s t : State, Inv s → tickCycles s.params ≤ holdCycles s.params → ZeroCountInsideHold s →
    step s = .next t → ZeroCountInsideHold t ∧
      (s.regs.tarm = true → s.regs.fcnt = 0 → acceptedRequest s = none)

/-- At the event level, where operations come in any order, every run from reset keeps `FLASH == (LAMP | TARM)`, and FCNT
is non-zero only while TARM is 1 (R34, R35). -/
def Obligations.EventLevelRunsKeepTheInvariants : Prop :=
  ∀ (p : Params) (ops : List EventOp) (r : Regs) (reps : List Reply),
    eventRun p ops (resetRegs p) = some (r, reps) → FlashIsLampOrArmed r ∧ CountOnlyWhileArmed r

/-! ## The two levels -/

/-- Every run of the clocked level is a run of the event level (R8, R156): the operations its cycles perform, in order,
are each enabled where they are taken, and lead to the same registers with the same replies. -/
def Obligations.ClockedRunsAreEventLevelRuns : Prop :=
  ∀ (k : Nat) (s t : State), runCycles k s = .next t →
    eventRun s.params (runOps k s) s.regs = some (t.regs, runReplies k s)

/-- Where the order of a TICK and a command matters at the event level (R157): for FLASH_AND_TRIGGER the count left
differs; for LIGHT_STATE at the expiry only the reply may differ; for every other command the state and the reply are
the same in both orders. -/
def Obligations.OrderOfTickAndCommand : Prop :=
  ∀ (p : Params) (r : Regs), r.tarm = true → r.trig = false →
    (∀ i, (∀ v, i ≠ .flashAndTrigger v) →
      ∃ r' reps reps', eventRun p [.tick, .cmd i] r = some (r', reps) ∧
        eventRun p [.cmd i, .tick] r = some (r', reps') ∧
        ((∀ v, i ≠ .lightState v) ∨ 2 ≤ r.fcnt.toNat → reps = reps')) ∧
    (∀ v, r.fcnt.toNat ≤ 1 → r.flash = true → r.lamp = false →
      ∃ r', eventRun p [.tick, .cmd (.lightState v)] r = some (r', [.one 0x00]) ∧
        eventRun p [.cmd (.lightState v), .tick] r = some (r', [.one 0x01])) ∧
    (∀ v, ∃ r1 r2 reps, eventRun p [.tick, .cmd (.flashAndTrigger v)] r = some (r1, reps) ∧
      eventRun p [.cmd (.flashAndTrigger v), .tick] r = some (r2, reps) ∧
      r1.fcnt = r.fdur ∧ r1.tarm = true ∧
      r2.fcnt.toNat = r.fdur.toNat - 1 ∧ r2.tarm = decide (2 ≤ r.fdur.toNat))

/-- From an armed state the timer is disarmed after exactly `max(FCNT, 1)` TICKs (R132), whatever other operations fall
between them, so long as none is a FLASH_AND_TRIGGER or a RESET: before that many it is armed with the count less the
TICKs so far and the line asserted if it was; at that many it is disarmed with a count of 0; more there cannot be. -/
def Obligations.TimerExpiresAfterItsCountOfTicks : Prop :=
  ∀ (p : Params) (ops : List EventOp) (r r' : Regs) (reps : List Reply),
    r.tarm = true → FlashIsLampOrArmed r → noResetNoArm ops = true → eventRun p ops r = some (r', reps) →
      ops.count .tick ≤ max r.fcnt.toNat 1 ∧
      (ops.count .tick < max r.fcnt.toNat 1 →
        r'.tarm = true ∧ r'.flash = true ∧ r'.fcnt.toNat = r.fcnt.toNat - ops.count .tick) ∧
      (ops.count .tick = max r.fcnt.toNat 1 → r'.tarm = false ∧ r'.flash = r'.lamp ∧ r'.fcnt = 0)

/-- Progress at the event level under weak fairness of TICK and RELEASE (the spec's decision D18): every trigger hold
ends, and every timed pulse ends once no further FLASH_AND_TRIGGER is performed. -/
def Obligations.PulsesEndUnderWeakFairness : Prop :=
  ∀ (p : Params) (σ : Nat → Regs) (op : Nat → Option EventOp), EventTrace p σ op →
    WeaklyFair σ op .tick → WeaklyFair σ op .release →
    (∀ n, ∃ m, n ≤ m ∧ (σ m).trig = false) ∧
    (∀ n, (∀ m v, n ≤ m → op m ≠ some (.cmd (.flashAndTrigger v))) → ∃ m, n ≤ m ∧ (σ m).tarm = false)

/-! ## Pulses in time -/

/-- The trigger pulse (R138; the counters are the spec's decision D13, the latency D10): after the accepted command, and
with no reset, the line is asserted and the port closed for exactly HOLD_CYCLES cycles, whatever happens meanwhile. -/
def Obligations.TriggerPulseLastsHoldCycles : Prop :=
  ∀ s t : State, s.params.wf → s.hcnt = 0 → (currentInputs s).rst = false → assertsTrigger s = true →
    step s = .next t →
    DuringCycles (holdCycles s.params) t (fun u => (currentInputs u).rst = false) →
      (∀ k, k < holdCycles s.params → ∃ u, runCycles k t = .next u ∧
        u.regs.trig = true ∧ reqReady u = false ∧ acceptedRequest u = none) ∧
      ∃ u, runCycles (holdCycles s.params) t = .next u ∧ u.regs.trig = false ∧ u.hcnt = 0

/-- The timed flash pulse (R154; the phase of the first TICK is the spec's decision D8, a duration of 0 its D7): after the
accepted FLASH_AND_TRIGGER with `FDUR = d`, with no re-arm and no reset, the timer is armed and the line asserted for
exactly `max(d, 1) * TICK_CYCLES` cycles, the count going down once per TICK_CYCLES; then the timer is disarmed and
the line is the lamp's. -/
def Obligations.FlashPulseLastsItsDuration : Prop :=
  ∀ s t : State, s.params.wf → (currentInputs s).rst = false → armsTimer s = true → step s = .next t →
    DuringCycles (max s.regs.fdur.toNat 1 * tickCycles s.params) t
      (fun u => (currentInputs u).rst = false ∧ armsTimer u = false) →
      (∀ k, k < max s.regs.fdur.toNat 1 * tickCycles s.params → ∃ u, runCycles k t = .next u ∧
        u.regs.tarm = true ∧ u.regs.flash = true ∧
        u.regs.fcnt.toNat = s.regs.fdur.toNat - k / tickCycles s.params) ∧
      ∃ u, runCycles (max s.regs.fdur.toNat 1 * tickCycles s.params) t = .next u ∧
        u.regs.tarm = false ∧ u.regs.fcnt = 0 ∧ u.regs.flash = u.regs.lamp

/-- A flash no longer than the hold is never seen by LIGHT_STATE (R103; the closed port is the spec's decision D9, a
duration of 0 its D7): after an accepted FLASH_AND_TRIGGER with the lamp off, whose pulse is no longer than the hold,
and with no reset, no command is accepted before the line has dropped; the state in which the port opens again has the
line down, and a LIGHT_STATE accepted there replies 0x00. -/
def Obligations.ShortFlashIsNeverSeenByTheHost : Prop :=
  ∀ s t : State, s.params.wf → s.hcnt = 0 → (currentInputs s).rst = false → armsTimer s = true →
    s.regs.lamp = false → max s.regs.fdur.toNat 1 * tickCycles s.params ≤ holdCycles s.params → step s = .next t →
    DuringCycles (holdCycles s.params) t (fun u => (currentInputs u).rst = false) →
      (∀ k u, k < holdCycles s.params → runCycles k t = .next u → acceptedRequest u = none) ∧
      ∃ u, runCycles (holdCycles s.params) t = .next u ∧
        u.regs.trig = false ∧ u.regs.tarm = false ∧ u.regs.flash = false ∧
        ∀ x, (currentInputs u).rst = false → acceptedInstr u = some (.lightState x) →
          ∃ w, step u = .next w ∧ w.reply = some (.one 0x00)

/-- A run ends (R206): with nothing more presented, a quiescent state is reached within the longer of the running pulse
and the hold; in it FCNT is 0 and FLASH equals LAMP, which is what it was; and nothing changes from there on. -/
def Obligations.QuiescenceIsReached : Prop :=
  ∀ s : State, Inv s → s.inputs = [] →
    ∃ n u, n ≤ max (max s.regs.fcnt.toNat 1 * tickCycles s.params) (holdCycles s.params) ∧
      runCycles n s = .next u ∧ quiescent u = true ∧
      u.regs = { s.regs with fcnt := 0, tarm := false, trig := false, flash := s.regs.lamp } ∧
      ∀ m, ∃ w, runCycles (n + m) s = .next w ∧ w.regs = u.regs ∧ w.pre = u.pre ∧ w.hcnt = u.hcnt

/-- A duration once set is read back any number of cycles later (R21, E2): after an accepted FLASH_TIME_SET(v), through
any cycles without a reset and without another FLASH_TIME_SET, whatever pulses run in them, FDUR is `v` and an
accepted FLASH_TIME_GET replies the two bytes of `v`. -/
def Obligations.DurationIsReadBackCyclesLater : Prop :=
  ∀ (s t u : State) (v : Word) (k : Nat),
    (currentInputs s).rst = false → acceptedInstr s = some (.flashTimeSet v) → step s = .next t →
    DuringCycles k t (fun w => (currentInputs w).rst = false ∧ setsDuration w = false) →
    runCycles k t = .next u →
      u.regs.fdur = v ∧
      (∀ x, (currentInputs u).rst = false → acceptedInstr u = some (.flashTimeGet x) →
        ∃ w hi lo, step u = .next w ∧ w.reply = some (.two hi lo) ∧ 256 * hi.toNat + lo.toNat = v.toNat)

/-! ## The host -/

/-- The obedient host of the spec's programs (R79, R182): while the port is closed or `rst` is pulled its request stays
the one it presents; once its cycle has come and the port is open, the block performs the line's command on the state
phase 1 leaves, and the line is done. -/
def Obligations.HostPresentsARequestUntilAccepted : Prop :=
  ∀ (resetAt : List Nat) (n : Nat) (l : Line) (prog : List Line) (s : State), s.params.cmdCode.wf = true →
    l.instr.wf s.params.cmdCode = true →
    (s.regs.trig = true ∨ n ∈ resetAt ∨ n < l.start →
      remaining (l :: prog) (driven resetAt n (l :: prog) s) = l :: prog) ∧
    (s.regs.trig = false → n ∉ resetAt → l.start ≤ n →
      remaining (l :: prog) (driven resetAt n (l :: prog) s) = prog ∧
      step (driven resetAt n (l :: prog) s) =
        exec l.instr (tickPhase { s with inputs := [], reply := none }))
end

