-- ==== Sys2Proof/Laws/State.lean ====
section
/-! SUPPORT. One lemma per field per update of `State`: what each shared update leaves in each field. -/

namespace Sys2Proof.Machine

variable (s : State) (r : Option Reply) (op : Regs → Regs × Reply) (w : BitVec 24)

@[simp] theorem withReply_regs : (withReply s r).regs = s.regs := rfl
@[simp] theorem withReply_pre : (withReply s r).pre = s.pre := rfl
@[simp] theorem withReply_hcnt : (withReply s r).hcnt = s.hcnt := rfl
@[simp] theorem withReply_reply : (withReply s r).reply = r := rfl
@[simp] theorem withReply_inputs : (withReply s r).inputs = s.inputs := rfl
@[simp] theorem withReply_params : (withReply s r).params = s.params := rfl

@[simp] theorem commitCommand_regs : (commitCommand op s).regs = (op s.regs).1 := rfl
@[simp] theorem commitCommand_pre : (commitCommand op s).pre = s.pre := rfl
@[simp] theorem commitCommand_hcnt : (commitCommand op s).hcnt = s.hcnt := rfl
@[simp] theorem commitCommand_reply : (commitCommand op s).reply = some (op s.regs).2 := rfl
@[simp] theorem commitCommand_inputs : (commitCommand op s).inputs = s.inputs := rfl
@[simp] theorem commitCommand_params : (commitCommand op s).params = s.params := rfl

@[simp] theorem restartTickPeriod_regs : (restartTickPeriod s).regs = s.regs := rfl
@[simp] theorem restartTickPeriod_pre : (restartTickPeriod s).pre = 0 := rfl
@[simp] theorem restartTickPeriod_hcnt : (restartTickPeriod s).hcnt = s.hcnt := rfl
@[simp] theorem restartTickPeriod_reply : (restartTickPeriod s).reply = s.reply := rfl
@[simp] theorem restartTickPeriod_inputs : (restartTickPeriod s).inputs = s.inputs := rfl
@[simp] theorem restartTickPeriod_params : (restartTickPeriod s).params = s.params := rfl

@[simp] theorem resetRegisters_regs : (resetRegisters s).regs = resetRegs s.params := rfl
@[simp] theorem resetRegisters_pre : (resetRegisters s).pre = 0 := rfl
@[simp] theorem resetRegisters_hcnt : (resetRegisters s).hcnt = 0 := rfl
@[simp] theorem resetRegisters_reply : (resetRegisters s).reply = none := rfl
@[simp] theorem resetRegisters_inputs : (resetRegisters s).inputs = s.inputs := rfl
@[simp] theorem resetRegisters_params : (resetRegisters s).params = s.params := rfl

@[simp] theorem beginCycle_regs : (beginCycle s).regs = s.regs := rfl
@[simp] theorem beginCycle_pre : (beginCycle s).pre = s.pre := rfl
@[simp] theorem beginCycle_hcnt : (beginCycle s).hcnt = s.hcnt := rfl
@[simp] theorem beginCycle_reply : (beginCycle s).reply = none := rfl
@[simp] theorem beginCycle_inputs : (beginCycle s).inputs = s.inputs.tail := rfl
@[simp] theorem beginCycle_params : (beginCycle s).params = s.params := rfl

@[simp] theorem presentWord_regs : (presentWord s w).regs = s.regs := rfl
@[simp] theorem presentWord_pre : (presentWord s w).pre = s.pre := rfl
@[simp] theorem presentWord_hcnt : (presentWord s w).hcnt = s.hcnt := rfl
@[simp] theorem presentWord_reply : (presentWord s w).reply = s.reply := rfl
@[simp] theorem presentWord_inputs :
    (presentWord s w).inputs = presenting (requestOfWord w) :: s.inputs.tail := rfl
@[simp] theorem presentWord_params : (presentWord s w).params = s.params := rfl

/-! The registers as RESET leaves them (R39). -/

variable (p : Params)

@[simp] theorem resetRegs_fdur : (resetRegs p).fdur = p.fdurReset := rfl
@[simp] theorem resetRegs_fcnt : (resetRegs p).fcnt = 0 := rfl
@[simp] theorem resetRegs_lamp : (resetRegs p).lamp = false := rfl
@[simp] theorem resetRegs_tarm : (resetRegs p).tarm = false := rfl
@[simp] theorem resetRegs_trig : (resetRegs p).trig = false := rfl
@[simp] theorem resetRegs_flash : (resetRegs p).flash = false := rfl

end Sys2Proof.Machine
end

