-- ==== Sys2Proof/Laws/Ops.lean ====
section
/-! SUPPORT. What the shared operations can do, said once each: TICK, RELEASE, a command at the port, and
each instruction's meaning as a use of them. -/

namespace Sys2Proof.Machine

/-! TICK and RELEASE on the registers -/

theorem countDown_zero : countDown 0 = 0 := rfl

theorem countDown_toNat (c : Word) : (countDown c).toNat = c.toNat - 1 := by
  unfold countDown
  split
  · next h => simp [h]
  · bv_omega

theorem zeroDetect_eq_true {c : Word} : zeroDetect c = true ↔ c = 0 := by
  simp [zeroDetect]

theorem zeroDetect_eq_false {c : Word} : zeroDetect c = false ↔ c ≠ 0 := by
  simp [zeroDetect]

theorem expires_iff {r : Regs} : expires r = true ↔ r.fcnt.toNat ≤ 1 := by
  rw [expires, zeroDetect_eq_true, ← BitVec.toNat_inj, countDown_toNat]
  simp; omega

@[simp] theorem tick_fdur (r : Regs) : (tick r).fdur = r.fdur := by unfold tick; split <;> rfl
@[simp] theorem tick_fcnt (r : Regs) : (tick r).fcnt = countDown r.fcnt := by unfold tick; split <;> rfl
@[simp] theorem tick_lamp (r : Regs) : (tick r).lamp = r.lamp := by unfold tick; split <;> rfl
@[simp] theorem tick_trig (r : Regs) : (tick r).trig = r.trig := by unfold tick; split <;> rfl

theorem tick_tarm (r : Regs) : (tick r).tarm = (!expires r && r.tarm) := by
  unfold tick; split <;> simp_all

theorem tick_flash (r : Regs) : (tick r).flash = if expires r then r.lamp else r.flash := by
  unfold tick; split <;> simp_all [flashAtExpiry]

/-- A TICK does one of two things: it counts down, or it counts down and expires (R125). -/
theorem tick_cases (r : Regs) :
    (expires r = true ∧
      tick r = { r with fcnt := countDown r.fcnt, flash := r.lamp, tarm := false }) ∨
    (expires r = false ∧ tick r = { r with fcnt := countDown r.fcnt }) := by
  unfold tick
  split
  · next h => exact .inl ⟨h, rfl⟩
  · next h => exact .inr ⟨by simpa using h, rfl⟩

@[simp] theorem release_fdur (r : Regs) : (release r).fdur = r.fdur := rfl
@[simp] theorem release_fcnt (r : Regs) : (release r).fcnt = r.fcnt := rfl
@[simp] theorem release_lamp (r : Regs) : (release r).lamp = r.lamp := rfl
@[simp] theorem release_tarm (r : Regs) : (release r).tarm = r.tarm := rfl
@[simp] theorem release_trig (r : Regs) : (release r).trig = false := rfl
@[simp] theorem release_flash (r : Regs) : (release r).flash = r.flash := rfl

/-! A command at the port -/

theorem whenPortOpen_open {s t : State} (h : s.regs.trig = false) : whenPortOpen s t = .next t := by
  simp [whenPortOpen, h]

theorem whenPortOpen_closed {s t : State} (h : s.regs.trig = true) :
    whenPortOpen s t = .next (withReply s none) := by
  simp [whenPortOpen, h]

/-- Only a FLASH_AND_TRIGGER touches a counter (R92). -/
def commandCounters : Instr → State → State
  | .flashAndTrigger _ => restartTickPeriod
  | _ => id

variable (i : Instr) (s : State)

@[simp] theorem commandCounters_regs : (commandCounters i s).regs = s.regs := by cases i <;> rfl
@[simp] theorem commandCounters_hcnt : (commandCounters i s).hcnt = s.hcnt := by cases i <;> rfl
@[simp] theorem commandCounters_reply : (commandCounters i s).reply = s.reply := by cases i <;> rfl
@[simp] theorem commandCounters_inputs : (commandCounters i s).inputs = s.inputs := by cases i <;> rfl
@[simp] theorem commandCounters_params : (commandCounters i s).params = s.params := by cases i <;> rfl

/-- Every meaning is its event-level operation, carried out where the port is open. -/
theorem exec_eq :
    exec i s = whenPortOpen s (commandCounters i (commitCommand (commandOp i) s)) := by
  cases i <;> rfl

end Sys2Proof.Machine
end

