-- ==== Sys2Proof/Laws/Event.lean ====
section
/-! SUPPORT. What one operation, and a schedule of operations, of the event level can do. -/

namespace Sys2Proof.Machine

variable {p : Params} {op : EventOp} {ops : List EventOp} {r r' : Regs} {rep : Option Reply} {reps : List Reply}

/-- An operation happens exactly where it is enabled, with its effect (R12). -/
theorem eventStep_eq_some :
    eventStep p op r = some (r', rep) ↔ eventEnabled op r = true ∧ eventEffect p op r = (r', rep) := by
  unfold eventStep
  split <;> simp_all

/-- A run that begins with an operation: that operation happens, and the rest runs from what it leaves. -/
theorem eventRun_cons :
    eventRun p (op :: ops) r = some (r', reps) ↔
      ∃ q rep reps', eventStep p op r = some (q, rep) ∧ eventRun p ops q = some (r', reps') ∧
        reps = rep.toList ++ reps' := by
  simp only [eventRun]
  cases h : eventStep p op r with
  | none => simp
  | some x =>
    obtain ⟨q, rep⟩ := x
    simp only [Option.some.injEq, Prod.mk.injEq]
    cases h' : eventRun p ops q with
    | none =>
      constructor
      · intro hc; cases hc
      · rintro ⟨q', _, _, ⟨rfl, rfl⟩, hc, -⟩; simp [h'] at hc
    | some y =>
      constructor
      · intro hc
        cases hc
        exact ⟨q, rep, y.2, ⟨rfl, rfl⟩, h', rfl⟩
      · rintro ⟨q', rep', reps', ⟨rfl, rfl⟩, hc, rfl⟩
        rw [h'] at hc
        cases hc
        rfl

@[simp] theorem eventRun_nil : eventRun p [] r = some (r, []) := rfl

/-- Two schedules on end (R58). -/
theorem eventRun_append {ops' : List EventOp} {q : Regs} {reps' : List Reply}
    (h : eventRun p ops r = some (q, reps)) (h' : eventRun p ops' q = some (r', reps')) :
    eventRun p (ops ++ ops') r = some (r', reps ++ reps') := by
  induction ops generalizing r reps with
  | nil => cases h; simpa using h'
  | cons op ops ih =>
    obtain ⟨q', rep, reps1, h1, h2, rfl⟩ := eventRun_cons.mp h
    exact eventRun_cons.mpr ⟨q', rep, reps1 ++ reps', h1, ih h2, by simp⟩

end Sys2Proof.Machine
end

