-- ==== Sys2Proof/Laws/Cycle.lean ====
section
/-! SUPPORT. What the phases and one step can do, said once each. -/

namespace Sys2Proof.Machine

variable {s : State}

/-! Phase 1 leaves everything but the flash side and PRE; phase 2 everything but TRIG and HCNT. -/

@[simp] theorem tickPhase_fdur : (tickPhase s).regs.fdur = s.regs.fdur := by
  unfold tickPhase; split <;> [simp; (split <;> rfl)]
@[simp] theorem tickPhase_lamp : (tickPhase s).regs.lamp = s.regs.lamp := by
  unfold tickPhase; split <;> [simp; (split <;> rfl)]
@[simp] theorem tickPhase_trig : (tickPhase s).regs.trig = s.regs.trig := by
  unfold tickPhase; split <;> [simp; (split <;> rfl)]
@[simp] theorem tickPhase_hcnt : (tickPhase s).hcnt = s.hcnt := by
  unfold tickPhase; split <;> [rfl; (split <;> rfl)]
@[simp] theorem tickPhase_reply : (tickPhase s).reply = s.reply := by
  unfold tickPhase; split <;> [rfl; (split <;> rfl)]
@[simp] theorem tickPhase_inputs : (tickPhase s).inputs = s.inputs := by
  unfold tickPhase; split <;> [rfl; (split <;> rfl)]
@[simp] theorem tickPhase_params : (tickPhase s).params = s.params := by
  unfold tickPhase; split <;> [rfl; (split <;> rfl)]

@[simp] theorem releasePhase_fdur : (releasePhase s).regs.fdur = s.regs.fdur := by
  unfold releasePhase; split <;> [rfl; (split <;> rfl)]
@[simp] theorem releasePhase_fcnt : (releasePhase s).regs.fcnt = s.regs.fcnt := by
  unfold releasePhase; split <;> [rfl; (split <;> rfl)]
@[simp] theorem releasePhase_lamp : (releasePhase s).regs.lamp = s.regs.lamp := by
  unfold releasePhase; split <;> [rfl; (split <;> rfl)]
@[simp] theorem releasePhase_tarm : (releasePhase s).regs.tarm = s.regs.tarm := by
  unfold releasePhase; split <;> [rfl; (split <;> rfl)]
@[simp] theorem releasePhase_flash : (releasePhase s).regs.flash = s.regs.flash := by
  unfold releasePhase; split <;> [rfl; (split <;> rfl)]
@[simp] theorem releasePhase_pre : (releasePhase s).pre = s.pre := by
  unfold releasePhase; split <;> [rfl; (split <;> rfl)]
@[simp] theorem releasePhase_reply : (releasePhase s).reply = s.reply := by
  unfold releasePhase; split <;> [rfl; (split <;> rfl)]
@[simp] theorem releasePhase_inputs : (releasePhase s).inputs = s.inputs := by
  unfold releasePhase; split <;> [rfl; (split <;> rfl)]
@[simp] theorem releasePhase_params : (releasePhase s).params = s.params := by
  unfold releasePhase; split <;> [rfl; (split <;> rfl)]

theorem tickDue_beginCycle : tickDue (beginCycle s) = tickDue s := rfl

theorem releaseDue_tickPhase : releaseDue (tickPhase s) = releaseDue s := by
  simp [releaseDue]

/-- Phase 1 does one of three things (R146). -/
theorem tickPhase_cases (s : State) :
    (tickDue s = true ∧ tickPhase s = { s with regs := tick s.regs, pre := 0 }) ∨
    (tickDue s = false ∧ s.regs.tarm = true ∧ tickPhase s = { s with pre := s.pre + 1 }) ∨
    (s.regs.tarm = false ∧ tickPhase s = s) := by
  unfold tickPhase
  cases hd : tickDue s <;> cases ht : s.regs.tarm <;> simp_all [tickDue]

/-- Phase 2 does one of three things (R147). -/
theorem releasePhase_cases (s : State) :
    (releaseDue s = true ∧ releasePhase s = { s with regs := release s.regs, hcnt := 0 }) ∨
    (releaseDue s = false ∧ s.regs.trig = true ∧ releasePhase s = { s with hcnt := s.hcnt + 1 }) ∨
    (s.regs.trig = false ∧ releasePhase s = s) := by
  unfold releasePhase
  cases hd : releaseDue s <;> cases ht : s.regs.trig <;> simp_all [releaseDue]

/-! The three kinds of cycle -/

theorem step_of_rst (h : (currentInputs s).rst = true) :
    step s = .next (resetRegisters (beginCycle s)) := by
  simp [step, cycle, h]

theorem step_of_accepted {i : Instr} (h : (currentInputs s).rst = false)
    (ha : acceptedInstr s = some i) : step s = exec i (afterPhases s) := by
  simp [step, cycle, h, ha]

theorem step_of_not_accepted (h : (currentInputs s).rst = false) (ha : acceptedInstr s = none) :
    step s = .next (afterPhases s) := by
  simp [step, cycle, h, ha]

/-- A request is accepted only at an open port (R31). -/
theorem trig_of_accepted {i : Instr} (ha : acceptedInstr s = some i) : s.regs.trig = false := by
  cases ht : s.regs.trig
  · rfl
  · simp [acceptedInstr, acceptedRequest, reqReady, ht] at ha

/-- At a closed port nothing is accepted (R31). -/
theorem accepted_of_trig (h : s.regs.trig = true) : acceptedRequest s = none ∧ acceptedInstr s = none := by
  have hn : acceptedRequest s = none := by simp [acceptedRequest, reqReady, h]
  exact ⟨hn, by simp [acceptedInstr, hn]⟩

/-- At an open port a request presented outside reset is accepted, whatever its code (R31). -/
theorem accepted_of_presented {cmd : Byte} {v : Word} (h : currentInputs s = ⟨false, true, cmd, v⟩)
    (ht : s.regs.trig = false) :
    acceptedRequest s = some ⟨cmd, v⟩ ∧ acceptedInstr s = some (decode s.params.cmdCode ⟨cmd, v⟩) := by
  have ha : acceptedRequest s = some ⟨cmd, v⟩ := by simp [acceptedRequest, reqReady, h, ht]
  exact ⟨ha, by simp [acceptedInstr, ha]⟩

/-- In a reset cycle nothing is accepted (R153). -/
theorem accepted_of_rst (h : (currentInputs s).rst = true) :
    acceptedRequest s = none ∧ acceptedInstr s = none := by
  have hn : acceptedRequest s = none := by simp [acceptedRequest, reqReady, h]
  exact ⟨hn, by simp [acceptedInstr, hn]⟩

/-- Where the port is open, phase 2 has nothing to do (R148). -/
theorem afterPhases_eq_tickPhase (h : s.regs.trig = false) :
    afterPhases s = tickPhase (beginCycle s) := by
  rcases releasePhase_cases (tickPhase (beginCycle s)) with ⟨hd, -⟩ | ⟨-, ht, -⟩ | ⟨-, he⟩
  · simp [releaseDue, h] at hd
  · simp [h] at ht
  · exact he

/-- The state a step leaves, by the kind of cycle: reset, an accepted command, or neither. -/
theorem step_cases {t : State} (h : step s = .next t) :
    ((currentInputs s).rst = true ∧ t = resetRegisters (beginCycle s)) ∨
    (∃ i, (currentInputs s).rst = false ∧ acceptedInstr s = some i ∧ s.regs.trig = false ∧
      t = commandCounters i (commitCommand (commandOp i) (tickPhase (beginCycle s)))) ∨
    ((currentInputs s).rst = false ∧ acceptedInstr s = none ∧ t = afterPhases s) := by
  cases hr : (currentInputs s).rst
  · cases ha : acceptedInstr s with
    | some i =>
      have ht := trig_of_accepted ha
      rw [step_of_accepted hr ha, afterPhases_eq_tickPhase ht, exec_eq,
        whenPortOpen_open (by simpa using ht)] at h
      exact .inr (.inl ⟨i, rfl, rfl, ht, by cases h; rfl⟩)
    | none =>
      rw [step_of_not_accepted hr ha] at h
      exact .inr (.inr ⟨rfl, rfl, by cases h; rfl⟩)
  · rw [step_of_rst hr] at h
    exact .inl ⟨rfl, by cases h; rfl⟩

end Sys2Proof.Machine
end

