-- ==== Sys2Proof/Laws/Decode.lean ====
section
/-! SUPPORT. The packing of a request into its 24-bit word loses nothing (spec/30_encoding.md R70). -/

namespace Sys2Proof

@[simp] theorem requestOfWord_word (q : Request) : requestOfWord q.word = q := by
  obtain ⟨c, v⟩ := q
  simp only [requestOfWord, Request.word, Request.mk.injEq]
  exact ⟨BitVec.extractLsb'_append_eq_left, BitVec.extractLsb'_append_eq_right⟩

@[simp] theorem word_requestOfWord (w : BitVec 24) : (requestOfWord w).word = w :=
  (BitVec.extractLsb'_append_extractLsb'_eq_extractLsb' rfl).trans (by simp)

/-- What decoding keeps of a request: its value field always, its code where it is UNKNOWN (R70, R73). -/
theorem value_decode (c : CmdCode) (q : Request) : (decode c q).value = q.value := by
  unfold decode
  repeat (split; rfl)
  rfl

/-- The code of the decoded instruction is the code that was decoded (R73, R74). -/
theorem code_decode (c : CmdCode) (q : Request) : (decode c q).code c = q.cmd := by
  unfold decode
  repeat (split; simp_all [Instr.code])
  rfl

end Sys2Proof
end

