-- ==== Sys2Proof/Laws/PerInstr.lean ====
section
/-! SUPPORT. A family of per-instruction facts about the encoding: where the request word of an instruction
holds its code and its value (spec/30_encoding.md R70, R74). -/

namespace Sys2Proof.Laws.EncodedFields

/-- Bits 23:16 of the instruction's request word hold its code, bits 15:0 its value field (R70). -/
def Statement (i : Instr) : Prop :=
  ∀ c : CmdCode,
    (encodeWord c i).extractLsb' 16 8 = i.code c ∧ (encodeWord c i).extractLsb' 0 16 = i.value

/-- The fields of an encoded request, for any instruction's code and value. -/
theorem fields_of_word (q : Request) :
    q.word.extractLsb' 16 8 = q.cmd ∧ q.word.extractLsb' 0 16 = q.value := by
  have h := requestOfWord_word q
  rw [Request.mk.injEq] at h
  exact h

theorem trigger (value : Word) : Statement (.trigger value) := fun _ => fields_of_word _
theorem flashAndTrigger (value : Word) : Statement (.flashAndTrigger value) := fun _ => fields_of_word _
theorem lightOn (value : Word) : Statement (.lightOn value) := fun _ => fields_of_word _
theorem lightOff (value : Word) : Statement (.lightOff value) := fun _ => fields_of_word _
theorem lightState (value : Word) : Statement (.lightState value) := fun _ => fields_of_word _
theorem flashTimeSet (value : Word) : Statement (.flashTimeSet value) := fun _ => fields_of_word _
theorem flashTimeGet (value : Word) : Statement (.flashTimeGet value) := fun _ => fields_of_word _
theorem unknown (cmd : Byte) (value : Word) : Statement (.unknown cmd value) := fun _ => fields_of_word _

end Sys2Proof.Laws.EncodedFields
end

