-- ==== Sys2Proof/Laws/Trace.lean ====
section
/-! SUPPORT. Runs of several cycles, taken apart and put together. -/

namespace Sys2Proof.Machine

variable {s t u : State} {k n : Nat}

@[simp] theorem runCycles_zero (s : State) : runCycles 0 s = .next s := rfl

/-- A run of `k + 1` cycles is one step and then `k` cycles. -/
theorem runCycles_succ (h : step s = .next t) : runCycles (k + 1) s = runCycles k t := by
  simp [runCycles, h]

/-- `k` cycles, then `n` more. -/
theorem runCycles_add (h : runCycles k s = .next t) : runCycles (k + n) s = runCycles n t := by
  induction k generalizing s with
  | zero => cases h; rw [Nat.zero_add]
  | succ k ih =>
    rw [Nat.add_right_comm]
    simp only [runCycles] at h ⊢
    cases hs : step s with
    | next q => rw [hs] at h; exact ih h
    | fault f => rw [hs] at h; cases h
    | refused f => rw [hs] at h; cases h

/-- `k` cycles, then one step. -/
theorem runCycles_snoc (h : runCycles k s = .next t) (hs : step t = .next u) :
    runCycles (k + 1) s = .next u := by
  rw [runCycles_add h, runCycles_succ hs, runCycles_zero]

end Sys2Proof.Machine
end

