-- ==== Sys2Proof/Tests/Slice0.lean ====
section
/-! SUPPORT. The model's own tests: well-formedness smoke, words written out from the spec's encoding, single
operations and single cycles taken from spec/95_test_vectors.md, and a witness for the premises of every statement. -/

namespace Sys2Proof.Tests

open Sys2Proof Sys2Proof.Machine

/-! ## Helpers -/

/-- Registers in the order of spec/95_test_vectors.md: LAMP / FDUR / FCNT / TARM / TRIG / FLASH. -/
def rg (lamp : Bool) (fdur fcnt : Word) (tarm trig flash : Bool) : Regs :=
  ⟨fdur, fcnt, lamp, tarm, trig, flash⟩

/-- Parameters with CLK_PER_MS = `n` and POLL_LATENCY = `lat`, the rest as R6. -/
def pr (n lat : Nat) : Params := { specParams with clkPerMs := n, pollLatency := lat }

/-- A state with CLK_PER_MS = `n`, POLL_LATENCY = 0 and the given ports of the present cycle. -/
def st (n : Nat) (r : Regs) (pre hcnt : Nat) (port : PortIn) : State :=
  { regs := r, pre := pre, hcnt := hcnt, reply := none, inputs := [port], params := pr n 0 }

/-- A request word on the port. -/
def word (w : BitVec 24) : PortIn := presenting (requestOfWord w)

/-- A word on the port together with `rst`. -/
def wordRst (w : BitVec 24) : PortIn := { word w with rst := true }

/-- The registers, counters and reply an outcome leaves. -/
def view : Host.Outcome State Fault Refusal → Option (Regs × Nat × Nat × Option Reply)
  | .next t => some (t.regs, t.pre, t.hcnt, t.reply)
  | .fault _ => none
  | .refused _ => none

/-- The registers and the reply an outcome leaves. -/
def seen : Host.Outcome State Fault Refusal → Option (Regs × Option Reply)
  | .next t => some (t.regs, t.reply)
  | .fault _ => none
  | .refused _ => none

/-! ## Well-formedness: an ill-formed term for each check -/

theorem test_wf_refuses_unknown_with_a_defined_code : (Instr.unknown 0x07 0).wf specCmdCode = false := by decide
theorem test_wf_accepts_unknown_with_a_reserved_code : (Instr.unknown 0x08 0).wf specCmdCode = true := by decide
theorem test_wf_refuses_two_commands_on_one_code :
    ({ specCmdCode with lightOff := 0x03 } : CmdCode).wf = false := by decide
theorem test_wf_refuses_a_reserved_code_for_a_command :
    ({ specCmdCode with trigger := 0x08 } : CmdCode).wf = false := by decide
theorem test_wf_refuses_no_clock : ¬ (pr 0 0).wf := by decide
theorem test_wf_refuses_no_tick_period : ¬ ({ specParams with tickMs := 0 } : Params).wf := by decide
theorem test_wf_refuses_no_hold : ¬ ({ specParams with holdMs := 0 } : Params).wf := by decide
theorem test_wf_refuses_illegal_codes :
    ¬ ({ specParams with cmdCode := { specCmdCode with trigger := 0x00 } } : Params).wf := by decide
theorem test_wf_accepts_specParams : specParams.wf := by decide

/-! ## Decoding, from words written out bit by bit as {cmd, value} (R70, R74) -/

theorem test_decode_trigger : decodeWord specCmdCode 0b00000001_0001001000110100 = .trigger 0x1234 := by decide
theorem test_decode_flashAndTrigger :
    decodeWord specCmdCode 0b00000010_1111111111111111 = .flashAndTrigger 0xFFFF := by decide
theorem test_decode_lightOn : decodeWord specCmdCode 0b00000011_0000000000000000 = .lightOn 0 := by decide
theorem test_decode_lightOff : decodeWord specCmdCode 0b00000100_0000000000000000 = .lightOff 0 := by decide
theorem test_decode_lightState :
    decodeWord specCmdCode 0b00000101_1010101111001101 = .lightState 0xABCD := by decide
theorem test_decode_flashTimeSet_1200 :
    decodeWord specCmdCode 0b00000110_0000010010110000 = .flashTimeSet 1200 := by decide
theorem test_decode_flashTimeGet : decodeWord specCmdCode 0b00000111_0000000000000000 = .flashTimeGet 0 := by decide
theorem test_decode_unknown_below : decodeWord specCmdCode 0b00000000_0000000000000000 = .unknown 0 0 := by decide
theorem test_decode_unknown_above :
    decodeWord specCmdCode 0b00001000_1011111011101111 = .unknown 0x08 0xBEEF := by decide
theorem test_encode_flashTimeSet_1200 : encodeWord specCmdCode (.flashTimeSet 1200) = 0x0604B0 := by decide
theorem test_decodeNat_rejects_a_wider_number :
    decodeNat specCmdCode 0x1000000 = .error .widerThanRequestWord := by rfl
/-- A table row given as its code bits alone, the operand bits zero. -/
theorem test_decodeTableWord_lightOn : decodeTableWord 24 0x030000 = some (.lightOn 0) := by decide
/-- Another legal assignment decodes by itself (R75). -/
theorem test_decode_other_assignment :
    decodeWord { specCmdCode with trigger := 0x02, flashAndTrigger := 0x01 } 0x010000 = .flashAndTrigger 0 := by decide

/-! ## The commands (spec/95_test_vectors.md 2.1 to 2.4) -/

/-- V-C3: TRIGGER during a timed flash leaves the countdown alone. -/
theorem test_trigger_during_flash :
    seen (exec (.trigger 0) (st 1 (rg false 50 68 true false true) 0 0 idlePorts)) =
      some (rg false 50 68 true true true, some .empty) := by decide
/-- V-C5: a re-arm discards the remaining count. -/
theorem test_flashAndTrigger_rearm :
    view (exec (.flashAndTrigger 0) (st 3 (rg false 50 68 true false true) 1 0 idlePorts)) =
      some (rg false 50 50 true true true, 0, 0, some .empty) := by decide
/-- V-C6: duration 0 arms with a count of 0. -/
theorem test_flashAndTrigger_zero :
    seen (exec (.flashAndTrigger 0) (st 1 (rg false 0 0 false false false) 0 0 idlePorts)) =
      some (rg false 0 0 true true true, some .empty) := by decide
/-- V-C10: LIGHT_ON during a timed flash. -/
theorem test_lightOn_during_flash :
    seen (exec (.lightOn 0) (st 1 (rg false 500 7 true false true) 0 0 idlePorts)) =
      some (rg true 500 7 true false true, some .empty) := by decide
/-- V-C11: LIGHT_OFF drops the line. -/
theorem test_lightOff :
    seen (exec (.lightOff 0) (st 1 (rg true 500 0 false false true) 0 0 idlePorts)) =
      some (rg false 500 0 false false false, some .empty) := by decide
/-- V-C14: LIGHT_OFF with the timer armed at a count of 0 keeps the line; the test is on TARM, not on FCNT. -/
theorem test_lightOff_armed_at_zero :
    seen (exec (.lightOff 0) (st 1 (rg false 0 0 true false true) 0 0 idlePorts)) =
      some (rg false 0 0 true false true, some .empty) := by decide
/-- V-C17: LIGHT_STATE reports the line, not the lamp flag. -/
theorem test_lightState_reports_line :
    seen (exec (.lightState 0) (st 1 (rg false 500 3 true false true) 0 0 idlePorts)) =
      some (rg false 500 3 true false true, some (.one 0x01)) := by decide
/-- V-C22: FLASH_TIME_SET during a timed flash leaves the running count. -/
theorem test_flashTimeSet_during_flash :
    seen (exec (.flashTimeSet 50) (st 1 (rg false 100 70 true false true) 0 0 idlePorts)) =
      some (rg false 50 70 true false true, some .empty) := by decide
/-- V-C24: FLASH_TIME_GET replies the high byte first. -/
theorem test_flashTimeGet_1200 :
    seen (exec (.flashTimeGet 0) (st 1 (rg false 1200 0 false false false) 0 0 idlePorts)) =
      some (rg false 1200 0 false false false, some (.two 0x04 0xB0)) := by decide
/-- V-C29: FLASH_TIME_GET replies the duration, never the countdown. -/
theorem test_flashTimeGet_during_flash :
    seen (exec (.flashTimeGet 0) (st 1 (rg false 100 70 true false true) 0 0 idlePorts)) =
      some (rg false 100 70 true false true, some (.two 0x00 0x64)) := by decide
/-- V-C31: an unknown code changes nothing. -/
theorem test_unknown :
    seen (exec (.unknown 0x08 0xFFFF) (st 1 (rg true 500 9 true false true) 0 0 idlePorts)) =
      some (rg true 500 9 true false true, some .empty) := by decide

/-! ## TICK, RELEASE and RESET (2.5 to 2.7) -/

/-- V-T3, V-T4: the expiring TICK, lamp off and on. -/
theorem test_tick_expiry :
    tick (rg false 500 1 true false true) = rg false 500 0 false false false ∧
    tick (rg true 500 1 true false true) = rg true 500 0 false false true := by decide
/-- V-T5: TICK at count 0 expires at once, with no wrap. -/
theorem test_tick_at_zero : tick (rg false 0 0 true true true) = rg false 0 0 false true false := by decide
/-- V-T6: the largest count. -/
theorem test_tick_largest : tick (rg false 65535 65535 true true true) = rg false 65535 65534 true true true := by
  decide
/-- V-R2: RELEASE during a timed flash. -/
theorem test_release : release (rg false 500 470 true true true) = rg false 500 470 true false true := by decide
/-- V-S14: reset cuts both pulses off. -/
theorem test_reset_cuts_pulses :
    view (step (st 1 (rg true 1000 993 true true true) 0 7 resetting)) =
      some (rg false 500 0 false false false, 0, 0, none) := by decide
/-- V-S15: a request presented in a reset cycle is not accepted. -/
theorem test_reset_beats_request :
    view (step (st 1 (rg false 500 0 false false false) 0 0 (wordRst 0x020000))) =
      some (rg false 500 0 false false false, 0, 0, none) := by decide

/-! ## Single cycles (2.8) -/

/-- V-S2: PRE and HCNT advance; the closed port accepts nothing. -/
theorem test_cycle_counters_advance :
    view (step (st 3 (rg false 31 31 true true true) 0 0 (word 0x050000))) =
      some (rg false 31 31 true true true, 1, 1, none) := by decide
/-- V-S3: the TICK of the last cycle of the period. -/
theorem test_cycle_tick :
    view (step (st 3 (rg false 31 31 true true true) 2 2 idlePorts)) =
      some (rg false 31 30 true true true, 0, 3, none) := by decide
/-- V-S4: TICK and RELEASE together. -/
theorem test_cycle_tick_and_release :
    view (step (st 1 (rg false 40 11 true true true) 0 29 (word 0x050000))) =
      some (rg false 40 10 true false true, 0, 0, none) := by decide
/-- V-S6: LIGHT_STATE in the cycle of the expiring TICK reports the line after it. -/
theorem test_cycle_expiry_then_lightState :
    view (step (st 1 (rg false 50 1 true false true) 0 0 (word 0x050000))) =
      some (rg false 50 0 false false false, 0, 0, some (.one 0x00)) := by decide
/-- V-S8: a re-arm on the edge of the expiry. -/
theorem test_cycle_expiry_then_rearm :
    view (step (st 3 (rg false 31 1 true false true) 2 0 (word 0x020000))) =
      some (rg false 31 31 true true true, 0, 0, some .empty) := by decide
/-- V-S9: arming clears PRE. -/
theorem test_cycle_rearm_restarts_period :
    view (step (st 3 (rg false 31 20 true false true) 1 0 (word 0x020000))) =
      some (rg false 31 31 true true true, 0, 0, some .empty) := by decide
/-- V-S13: with POLL_LATENCY = 3 the hold is 33 cycles, and a request on the release edge is not accepted. -/
theorem test_cycle_release_with_latency :
    view (step { st 1 (rg false 500 0 false true false) 0 32 (word 0x030000) with params := pr 1 3 }) =
      some (rg false 500 0 false false false, 0, 0, none) := by decide
/-- The reply port of V-C24 and V-C16: length and packed data. -/
theorem test_reply_port :
    rspLen { State.reset with reply := some (.two 0x04 0xB0) } = 2 ∧
    rspData { State.reset with reply := some (.two 0x04 0xB0) } = 0x04B0 ∧
    rspData { State.reset with reply := some (.one 0x01) } = 0x0100 := by decide
/-- A table word put on the port runs from reset: V-C4, the source's first scenario. -/
theorem test_withFetchWord_flashAndTrigger :
    seen (step (State.reset.withFetchWord 24 0x020000)) = some (rg false 500 500 true true true, some .empty) := by
  decide
/-- EV1 of spec/95_test_vectors.md: a run of the event level that the clocked level never produces. -/
theorem test_event_level_run :
    eventRun specParams
      [.cmd (.flashAndTrigger 0), .release, .cmd (.lightOff 0), .cmd (.lightState 0), .tick, .cmd (.lightState 0)]
      (rg false 0 0 false false false) =
      some (rg false 0 0 false false false, [.empty, .empty, .one 0x01, .one 0x00]) := by decide
/-- The host keeps its request presented at a closed port, and takes the line off once accepted (P8, cycle 1). -/
theorem test_host_waits :
    remaining [⟨1, .lightOn 0⟩] (driven [] 1 [⟨1, .lightOn 0⟩] (st 1 (rg false 500 0 false true false) 0 0 idlePorts)) =
      [⟨1, .lightOn 0⟩] ∧
    remaining [⟨1, .lightOn 0⟩] (driven [] 34 [⟨1, .lightOn 0⟩] State.reset) = [] := by decide

/-! ## Witnesses: the premises of each statement are met by a concrete state and operands -/

/-- An armed, held state under CLK_PER_MS = 3 that meets every invariant (V-S2's next state). -/
def held : State := st 3 (rg false 31 31 true true true) 1 1 idlePorts

/-- A state armed by a duration of 0, inside the hold, on the first cycle after the arm. -/
def zeroHeld : State := st 3 (rg false 0 0 true true true) 0 0 (word 0x040000)

theorem inv_held : Inv held :=
  ⟨by decide, by unfold FlashIsLampOrArmed; decide, by unfold CountOnlyWhileArmed; decide, by decide, by decide,
    by decide, by decide⟩

theorem inv_zeroHeld : Inv zeroHeld :=
  ⟨by decide, by unfold FlashIsLampOrArmed; decide, by unfold CountOnlyWhileArmed; decide, by decide, by decide,
    by decide, by decide⟩

theorem witness_DecodingLooksAtTheCodeOnly : specCmdCode.wf = true ∧ (0x08 : Byte) ∉ specCmdCode.toList := by decide
theorem witness_ReservedCodesAreExactlyUnknown :
    ({ specCmdCode with trigger := 0x07, flashTimeGet := 0x01 } : CmdCode).wf = true ∧
    decode specCmdCode ⟨0x00, 0⟩ = .unknown 0x00 0 ∧ decode specCmdCode ⟨0x08, 0⟩ = .unknown 0x08 0 ∧
    decode specCmdCode ⟨0x07, 0⟩ ≠ .unknown 0x07 0 := by decide
theorem witness_DecodeOfEncodeIsTheInstruction :
    specCmdCode.wf = true ∧ (Instr.unknown 0xFF 0xFFFF).wf specCmdCode = true ∧
    (Instr.flashTimeSet 65535).wf specCmdCode = true := by decide
theorem witness_StepRunsTheDecodedRequest :
    (st 1 (rg false 500 0 false false false) 0 0 (word 0x0604B0)).inputs = ⟨false, true, 0x06, 0x04B0⟩ :: [] ∧
    (st 1 (rg false 500 0 false false false) 0 0 (word 0x0604B0)).regs.trig = false := by decide
/-- The states with TRIG at 1: RELEASE and RESET leave it, a TICK does not. -/
theorem witness_TriggerAssertsTheTriggerLine :
    held.regs.trig = true ∧
    eventStep held.params .release held.regs = some (rg false 31 31 true false true, none) ∧
    eventStep held.params .reset held.regs = some (rg false 500 0 false false false, none) ∧
    eventStep held.params .tick held.regs = some (rg false 31 30 true true true, none) := by decide
/-- The open port: the premise of the statements of TRIGGER, FLASH_AND_TRIGGER, LIGHT_ON, LIGHT_OFF, LIGHT_STATE,
FLASH_TIME_SET, FLASH_TIME_GET and the reply lengths. -/
theorem witness_open_port : State.reset.regs.trig = false := by decide
theorem witness_FlashAndTriggerArmsTheTimer :
    eventStep specParams (.cmd (.flashAndTrigger 7)) (rg false 500 0 false false false) =
      some (rg false 500 500 true true true, some .empty) ∧
    (rg false 500 0 false false false).tarm = false ∧ (rg false 500 500 true true true).tarm = true := by decide
theorem witness_LightStateReportsTheLine :
    State.reset.regs.trig = false ∧ FlashIsLampOrArmed State.reset.regs := by unfold FlashIsLampOrArmed; decide
theorem witness_UnknownCommandIsSilentlyIgnored :
    ((0x00 : Byte) = 0x00 ∨ 8 ≤ (0x00 : Byte).toNat) ∧ ((0x08 : Byte) = 0x00 ∨ 8 ≤ (0x08 : Byte).toNat) ∧
    State.reset.regs.trig = false ∧ held.regs.trig = true := by decide
/-- 0x00 at an open port and 0xFF at a closed one. -/
theorem witness_UnknownCommandIsSilentlyIgnored_presented :
    currentInputs (State.reset.withFetchWord 24 0x000000) = ⟨false, true, 0x00, 0x0000⟩ ∧
    (State.reset.withFetchWord 24 0x000000).regs.trig = false ∧
    (State.reset.withFetchWord 24 0x000000).params.cmdCode.wf = true ∧
    currentInputs (held.withFetchWord 24 0xFF0000) = ⟨false, true, 0xFF, 0x0000⟩ ∧
    (held.withFetchWord 24 0xFF0000).regs.trig = true := by decide
theorem witness_ClosedPortPerformsNoCommand : held.regs.trig = true := by decide
theorem witness_ValueFieldIsIgnoredButBySet : ∀ x, Instr.lightState 3 ≠ .flashTimeSet x := by simp
theorem witness_CommandsWriteOnlyTheirRegisters :
    exec (.flashTimeSet 9) State.reset =
      .next { State.reset with regs := rg false 9 0 false false false, reply := some .empty } := by rfl
theorem witness_CommandsWriteOnlyTheirRegisters_each_clause :
    view (exec (.flashAndTrigger 0) (st 3 (rg false 50 68 true false true) 1 0 idlePorts)) ≠
      view (.next (st 3 (rg false 50 68 true false true) 1 0 idlePorts)) ∧
    seen (exec (.flashTimeSet 9) State.reset) ≠ seen (.next State.reset) ∧
    seen (exec (.lightOn 0) State.reset) ≠ seen (.next State.reset) ∧
    seen (exec (.trigger 0) State.reset) ≠ seen (.next State.reset) := by decide
theorem witness_TickCountsDownAndExpiresAtZero :
    (rg false 500 0 false false false).tarm = false ∧
    ((rg false 2 2 true false true).tarm = true ∧ 2 ≤ (rg false 2 2 true false true).fcnt.toNat) ∧
    ((rg false 1 1 true false true).tarm = true ∧ (rg false 1 1 true false true).fcnt.toNat ≤ 1) ∧
    (rg false 0 0 true false true).fcnt.toNat ≤ 1 := by decide
theorem witness_ReleaseDropsTheTriggerLine :
    (rg false 500 470 true true true).trig = true ∧ (rg false 500 470 true false true).trig = false ∧
    (currentInputs (st 1 (rg false 40 11 true true true) 0 29 (word 0x050000))).rst = false ∧
    releaseDue (st 1 (rg false 40 11 true true true) 0 29 (word 0x050000)) = true ∧
    (currentInputs { st 1 (rg false 40 10 true false true) 0 0 idlePorts with inputs := [] }).rst = false := by decide
theorem witness_ResetOverridesEverything :
    (st 1 (rg true 1000 993 true true true) 0 7 (wordRst 0x020000)).inputs = ⟨true, true, 0x02, 0x0000⟩ :: [] := by
  decide
theorem witness_TickGeneratorCountsCycles :
    armsTimer (st 3 (rg false 31 20 true false true) 1 0 (word 0x020000)) = true ∧
    (armsTimer (st 3 (rg false 31 31 true true true) 2 2 idlePorts) = false ∧
      (st 3 (rg false 31 31 true true true) 2 2 idlePorts).pre = tickCycles (pr 3 0) - 1) ∧
    (armsTimer held = false ∧ held.regs.tarm = true ∧ held.pre ≠ tickCycles held.params - 1) ∧
    (armsTimer State.reset = false ∧ State.reset.regs.tarm = false) := by decide
theorem witness_TickGeneratorCountsCycles_step :
    step held = .next { held with pre := 2, hcnt := 2, inputs := [] } ∧ (currentInputs held).rst = false :=
  ⟨rfl, rfl⟩
theorem witness_TriggerFsmTransitions :
    assertsTrigger (st 1 (rg false 500 0 false false false) 0 0 (word 0x010000)) = true ∧
    (st 1 (rg false 40 11 true true true) 0 29 idlePorts).hcnt = holdCycles (pr 1 0) - 1 ∧
    held.regs.trig = true ∧ held.hcnt ≠ holdCycles held.params - 1 := by decide
theorem witness_RegistersChangeOnlyByTheirWriters :
    FlashIsLampOrArmed (st 1 (rg false 50 1 true false true) 0 0 idlePorts).regs ∧
    seen (step (st 1 (rg false 50 1 true false true) 0 0 idlePorts)) = some (rg false 50 0 false false false, none) ∧
    seen (step (st 1 (rg true 50 0 false false true) 0 0 (word 0x040000))) =
      some (rg false 50 0 false false false, some .empty) ∧
    seen (step (st 1 (rg false 50 0 false false false) 0 0 (word 0x030000))) =
      some (rg true 50 0 false false true, some .empty) ∧
    seen (step (st 1 (rg false 50 0 false false false) 0 0 (word 0x060032))) ≠
      seen (step (st 1 (rg false 50 0 false false false) 0 0 (word 0x060064))) := by
  unfold FlashIsLampOrArmed; decide
theorem witness_ExpiryAndCommandInOneCycle :
    acceptedInstr (st 1 (rg false 50 1 true false true) 0 0 (word 0x050000)) = some (.lightState 0) ∧
    acceptedInstr (st 1 (rg false 50 1 true false true) 0 0 (word 0x020000)) = some (.flashAndTrigger 0) ∧
    acceptedInstr (st 1 (rg false 50 1 true false true) 0 0 (word 0x030000)) = some (.lightOn 0) ∧
    acceptedInstr (st 1 (rg false 50 1 true false true) 0 0 (word 0x040000)) = some (.lightOff 0) ∧
    tickDue (st 1 (rg false 50 1 true false true) 0 0 (word 0x050000)) = true ∧
    (rg false 50 1 true false true).fcnt.toNat ≤ 1 := by decide
theorem witness_ReplyPortPacking :
    (view (step (st 1 (rg false 500 0 false false false) 0 0 (word 0x070000)))).map (·.2.2.2) =
      some (some (.two 0x01 0xF4)) ∧
    (view (step (st 1 (rg false 500 0 false false false) 0 0 (word 0x050000)))).map (·.2.2.2) = some (some (.one 0)) ∧
    (view (step (st 1 (rg false 500 0 false false false) 0 0 (word 0x010000)))).map (·.2.2.2) = some (some .empty) ∧
    (view (step held)).map (·.2.2.2) = some none := by decide
theorem witness_PolarityAppearsOnlyAtThePins : step State.reset = .next State.reset := rfl
theorem witness_ResetStateMeetsTheInvariants : specParams.wf ∧ (pr 3 5).wf := by decide
theorem witness_EveryStepKeepsTheInvariants :
    Inv held ∧ step held = .next { held with pre := 2, hcnt := 2, inputs := [] } := ⟨inv_held, rfl⟩
theorem witness_ZeroCountStaysInsideTheHold :
    Inv zeroHeld ∧ tickCycles zeroHeld.params ≤ holdCycles zeroHeld.params ∧ ZeroCountInsideHold zeroHeld ∧
    zeroHeld.regs.tarm = true ∧ zeroHeld.regs.fcnt = 0 ∧
    step zeroHeld = .next { zeroHeld with pre := 1, hcnt := 1, inputs := [] } :=
  ⟨inv_zeroHeld, by decide, fun _ _ => ⟨rfl, rfl⟩, rfl, rfl, rfl⟩
theorem witness_EventLevelRunsKeepTheInvariants :
    eventRun specParams [.cmd (.flashAndTrigger 0), .tick, .release] (resetRegs specParams) =
      some (rg false 500 499 true false true, [.empty]) := by decide
theorem witness_ClockedRunsAreEventLevelRuns :
    runCycles 1 held = .next { held with pre := 2, hcnt := 2, inputs := [] } := rfl
theorem witness_OrderOfTickAndCommand :
    (rg false 500 1 true false true).tarm = true ∧ (rg false 500 1 true false true).trig = false ∧
    (rg false 500 1 true false true).fcnt.toNat ≤ 1 ∧ (rg false 500 1 true false true).flash = true ∧
    (rg false 500 1 true false true).lamp = false ∧ 2 ≤ (rg false 500 2 true false true).fcnt.toNat := by decide
theorem witness_TimerExpiresAfterItsCountOfTicks :
    FlashIsLampOrArmed (rg false 500 2 true false true) ∧
    noResetNoArm [.tick, .cmd (.lightOn 0), .tick] = true ∧
    eventRun specParams [.tick, .cmd (.lightOn 0), .tick] (rg false 500 2 true false true) =
      some (rg true 500 0 false false true, [.empty]) ∧
    eventRun specParams [.tick] (rg false 500 2 true false true) = some (rg false 500 1 true false true, []) := by
  unfold FlashIsLampOrArmed; decide

/-- A trace in which an armed count of 1 is ticked off and nothing happens afterwards. -/
def oneTick : Nat → Regs
  | 0 => rg false 500 1 true false true
  | _ + 1 => rg false 500 0 false false false

/-- The operations of that trace. -/
def oneTickOps : Nat → Option EventOp
  | 0 => some .tick
  | _ + 1 => none

theorem witness_PulsesEndUnderWeakFairness :
    EventTrace specParams oneTick oneTickOps ∧ WeaklyFair oneTick oneTickOps .tick ∧
    WeaklyFair oneTick oneTickOps .release ∧
    (∀ m v, 0 ≤ m → oneTickOps m ≠ some (.cmd (.flashAndTrigger v))) := by
  refine ⟨fun n => ?_, fun n => ⟨n + 1, by omega, .inl rfl⟩, fun n => ⟨n + 1, by omega, .inl rfl⟩, fun m v _ => ?_⟩
  · cases n with
    | zero => exact .inr ⟨.tick, none, rfl, by decide⟩
    | succ n => exact .inl ⟨rfl, rfl⟩
  · cases m <;> simp [oneTickOps]

/-- A premise over the cycles of a run, checked cycle by cycle. -/
theorem during_of_checks {n : Nat} {s : State} {P : State → Prop} [DecidablePred P]
    (h : ((List.range n).all fun k =>
      match runCycles k s with
      | .next u => decide (P u)
      | .fault _ => true
      | .refused _ => true) = true) : DuringCycles n s P := by
  intro k hk u hu
  have := List.all_eq_true.mp h k (List.mem_range.mpr hk)
  rw [hu] at this
  exact of_decide_eq_true this

/-- Parameters with a hold of 2 cycles. -/
def shortHold : Params := { specParams with holdMs := 1, pollLatency := 1 }

/-- A FLASH_AND_TRIGGER accepted with a duration of 2, the hold being 2 cycles; a LIGHT_ON is presented in the
cycles after it. -/
def arming : State :=
  { regs := rg false 2 0 false false false, pre := 0, hcnt := 0, reply := none
    inputs := [word 0x020000, word 0x030000, word 0x030000], params := shortHold }

/-- The state after `arming`'s cycle. -/
def armed : State :=
  { regs := rg false 2 2 true true true, pre := 0, hcnt := 0, reply := some .empty
    inputs := [word 0x030000, word 0x030000], params := shortHold }

theorem witness_TriggerPulseLastsHoldCycles :
    arming.params.wf ∧ arming.hcnt = 0 ∧ (currentInputs arming).rst = false ∧ assertsTrigger arming = true ∧
    step arming = .next armed ∧
    DuringCycles (holdCycles arming.params) armed (fun u => (currentInputs u).rst = false) :=
  ⟨by decide, rfl, rfl, rfl, rfl, during_of_checks (by decide)⟩
theorem witness_FlashPulseLastsItsDuration :
    arming.params.wf ∧ (currentInputs arming).rst = false ∧ armsTimer arming = true ∧ step arming = .next armed ∧
    DuringCycles (max arming.regs.fdur.toNat 1 * tickCycles arming.params) armed
      (fun u => (currentInputs u).rst = false ∧ armsTimer u = false) :=
  ⟨by decide, rfl, rfl, rfl, during_of_checks (by decide)⟩
theorem witness_ShortFlashIsNeverSeenByTheHost :
    arming.params.wf ∧ arming.hcnt = 0 ∧ (currentInputs arming).rst = false ∧ armsTimer arming = true ∧
    arming.regs.lamp = false ∧
    max arming.regs.fdur.toNat 1 * tickCycles arming.params ≤ holdCycles arming.params ∧
    step arming = .next armed ∧
    DuringCycles (holdCycles arming.params) armed (fun u => (currentInputs u).rst = false) :=
  ⟨by decide, rfl, rfl, rfl, rfl, by decide, rfl, during_of_checks (by decide)⟩
/-- The last clause's premise, at the end of such a hold: a LIGHT_STATE accepted in the state the RELEASE leaves. -/
theorem witness_ShortFlash_lightState :
    acceptedInstr (st 1 (rg false 2 0 false false false) 0 0 (word 0x050000)) = some (.lightState 0) ∧
    (currentInputs (st 1 (rg false 2 0 false false false) 0 0 (word 0x050000))).rst = false := by decide
theorem witness_QuiescenceIsReached : Inv { held with inputs := [] } ∧ ({ held with inputs := [] } : State).inputs = [] :=
  ⟨⟨inv_held.params, inv_held.flash, inv_held.count, inv_held.preLt, inv_held.hcntLt, inv_held.preZero,
    inv_held.hcntZero⟩, rfl⟩

/-- A FLASH_TIME_SET 1200 and, two cycles later, a FLASH_TIME_GET (the source's second scenario, E3). -/
def setting : State :=
  { State.reset with inputs := [word 0x0604B0, idlePorts, word 0x070000] }

theorem witness_DurationIsReadBackCyclesLater :
    (currentInputs setting).rst = false ∧ acceptedInstr setting = some (.flashTimeSet 1200) ∧
    step setting = .next { setting with
      regs := rg false 1200 0 false false false, reply := some .empty, inputs := [idlePorts, word 0x070000] } ∧
    DuringCycles 1 { setting with
      regs := rg false 1200 0 false false false, reply := some .empty, inputs := [idlePorts, word 0x070000] }
      (fun w => (currentInputs w).rst = false ∧ setsDuration w = false) ∧
    acceptedInstr { setting with regs := rg false 1200 0 false false false, inputs := [word 0x070000] } =
      some (.flashTimeGet 0) :=
  ⟨rfl, rfl, rfl, during_of_checks (by decide), rfl⟩
theorem witness_RequestAtAClosedPortHasNoEffect : held.regs.trig = true := by decide
theorem witness_HostPresentsARequestUntilAccepted :
    specParams.cmdCode.wf = true ∧ (Instr.lightOn 0).wf specParams.cmdCode = true ∧
    (held.regs.trig = true ∧ 10 ∈ [10] ∧ 1 < 2) ∧
    (State.reset.regs.trig = false ∧ 34 ∉ [10] ∧ 34 ≤ 34) := by decide

end Sys2Proof.Tests
end

section
/-! PROOFS of the family spec/10_state.md, with the lemmas they use. First, what one command cycle and a run of
several cycles leave, in forms that every later proof can cite. -/

namespace Sys2Proof.Machine

variable {s t u : State} {i : Instr} {v : Word} {k : Nat} {P I : State → Prop}

/-! One cycle with an accepted command -/

/-- The whole next state of a cycle that accepts a command: phase 1, then the command (R148, R150). -/
theorem step_of_accepted_eq (hr : (currentInputs s).rst = false) (ha : acceptedInstr s = some i) :
    step s = .next (commandCounters i (commitCommand (commandOp i) (tickPhase (beginCycle s)))) := by
  have ht : s.regs.trig = false := trig_of_accepted ha
  rw [step_of_accepted hr ha, afterPhases_eq_tickPhase ht, exec_eq, whenPortOpen_open (by simpa using ht)]

/-! Runs of several cycles -/

/-- The first step of a run that reaches a state, and the rest of that run. -/
theorem runCycles_succ_cases (h : runCycles (k + 1) s = .next u) :
    ∃ t, step s = .next t ∧ runCycles k t = .next u := by
  cases hs : step s with
  | next t => exact ⟨t, rfl, runCycles_succ hs ▸ h⟩
  | fault f => cases f
  | refused f => simp [runCycles, hs] at h

theorem DuringCycles.head (h : DuringCycles (k + 1) s P) : P s :=
  h 0 k.succ_pos s rfl

theorem DuringCycles.tail (h : DuringCycles (k + 1) s P) (hs : step s = .next t) : DuringCycles k t P :=
  fun n hn w hw => h (n + 1) (Nat.succ_lt_succ hn) w ((runCycles_succ hs).trans hw)

/-- The induction over cycles: what every step from a state with `P` keeps, a run with `P` in each cycle keeps. -/
theorem runCycles_keeps (hstep : ∀ w w', P w → I w → step w = .next w' → I w')
    (hI : I s) (hP : DuringCycles k s P) (h : runCycles k s = .next u) : I u := by
  induction k generalizing s with
  | zero => cases h; exact hI
  | succ k ih =>
    obtain ⟨t, hs, ht⟩ := runCycles_succ_cases h
    exact ih (hstep s t hP.head hI hs) (hP.tail hs) ht

end Sys2Proof.Machine
end

section
/-! PROOFS. The polarities in the cycle (R33): every phase and operation commutes with a change of them. -/

namespace Sys2Proof.Machine

variable {s t : State} (f g : Bool)

/-- The state with other polarities of the two lines (R33). -/
def withPolarity (f g : Bool) (s : State) : State :=
  { s with params := { s.params with flashActiveHigh := f, trigActiveHigh := g } }

theorem pinLevel_eq_beq (activeHigh line : Bool) : pinLevel activeHigh line = (line == activeHigh) := by
  cases activeHigh with
  | true => exact (beq_true line).symm
  | false => exact (beq_false line).symm

@[simp] theorem currentInputs_withPolarity : currentInputs (withPolarity f g s) = currentInputs s := rfl
@[simp] theorem acceptedInstr_withPolarity : acceptedInstr (withPolarity f g s) = acceptedInstr s := rfl

theorem beginCycle_withPolarity : beginCycle (withPolarity f g s) = withPolarity f g (beginCycle s) := rfl

theorem resetRegisters_withPolarity :
    resetRegisters (withPolarity f g s) = withPolarity f g (resetRegisters s) := rfl

theorem tickPhase_withPolarity : tickPhase (withPolarity f g s) = withPolarity f g (tickPhase s) := by
  simp only [tickPhase, apply_ite (withPolarity f g)]
  rfl

theorem releasePhase_withPolarity : releasePhase (withPolarity f g s) = withPolarity f g (releasePhase s) := by
  simp only [releasePhase, apply_ite (withPolarity f g)]
  rfl

theorem afterPhases_withPolarity : afterPhases (withPolarity f g s) = withPolarity f g (afterPhases s) := by
  simp only [afterPhases, beginCycle_withPolarity, tickPhase_withPolarity, releasePhase_withPolarity]

theorem command_withPolarity (i : Instr) :
    commandCounters i (commitCommand (commandOp i) (withPolarity f g s)) =
      withPolarity f g (commandCounters i (commitCommand (commandOp i) s)) := by
  cases i <;> rfl

/-- A step and a change of polarity commute, in each of the three kinds of cycle. -/
theorem step_withPolarity (h : step s = .next t) :
    step (withPolarity f g s) = .next (withPolarity f g t) := by
  obtain ⟨hr, rfl⟩ | ⟨i, hr, ha, -, rfl⟩ | ⟨hr, ha, rfl⟩ := step_cases h
  · rw [step_of_rst (by simpa using hr), beginCycle_withPolarity, resetRegisters_withPolarity]
  · rw [step_of_accepted_eq (by simpa using hr) (by simpa using ha), beginCycle_withPolarity,
      tickPhase_withPolarity, command_withPolarity]
  · rw [step_of_not_accepted (by simpa using hr) (by simpa using ha), afterPhases_withPolarity]

/-- Settles O30: the pins by the two polarities, the step because every part of it commutes with a change of them. -/
theorem polarityAppearsOnlyAtThePins : Obligations.PolarityAppearsOnlyAtThePins :=
  ⟨fun _ => ⟨pinLevel_eq_beq _ _, pinLevel_eq_beq _ _⟩, fun _ _ f g h => step_withPolarity f g h⟩

end Sys2Proof.Machine
end

section
/-! PROOFS. FDUR over one cycle and over many (R21): FLASH_TIME_SET writes it, FLASH_TIME_GET replies it, and
outside reset nothing else touches it. -/

namespace Sys2Proof.Machine

variable {s t : State} {i : Instr} {v x : Word}

/-- FDUR as a command leaves it: only FLASH_TIME_SET writes it (R21, R110). -/
theorem commandOp_fdur (r : Regs) (h : ∀ v, i ≠ .flashTimeSet v) : (commandOp i r).1.fdur = r.fdur := by
  cases i with
  | flashTimeSet v => exact absurd rfl (h v)
  | _ => rfl

theorem setsDuration_of_accepted (ha : acceptedInstr s = some (.flashTimeSet v)) : setsDuration s = true := by
  simp [setsDuration, ha]

theorem fdur_of_flashTimeSet_accepted (hr : (currentInputs s).rst = false)
    (ha : acceptedInstr s = some (.flashTimeSet v)) (h : step s = .next t) : t.regs.fdur = v := by
  cases (step_of_accepted_eq hr ha).symm.trans h
  rfl

/-- A cycle without reset and without a FLASH_TIME_SET leaves FDUR alone, whatever pulses run in it. -/
theorem step_keeps_fdur (hr : (currentInputs s).rst = false) (hset : setsDuration s = false)
    (h : step s = .next t) : t.regs.fdur = s.regs.fdur := by
  obtain ⟨hr', -⟩ | ⟨i, -, ha, -, rfl⟩ | ⟨-, -, rfl⟩ := step_cases h
  · simp [hr] at hr'
  · have hi : ∀ v, i ≠ .flashTimeSet v := by
      rintro v rfl
      simp [setsDuration_of_accepted ha] at hset
    simp [commandOp_fdur _ hi]
  · simp [afterPhases]

/-- The two bytes of a big-endian reply carry the whole word (R52). -/
theorem highByte_lowByte_toNat (w : Word) : 256 * (highByte w).toNat + (lowByte w).toNat = w.toNat := by
  simp only [highByte, lowByte, BitVec.extractLsb'_toNat, Nat.shiftRight_eq_div_pow]
  omega

/-- An accepted FLASH_TIME_GET replies the bytes of FDUR as it stands at the start of the cycle (R112, R113). -/
theorem step_flashTimeGet_reply (hr : (currentInputs s).rst = false)
    (ha : acceptedInstr s = some (.flashTimeGet x)) :
    ∃ w, step s = .next w ∧ w.reply = some (.two (highByte s.regs.fdur) (lowByte s.regs.fdur)) :=
  ⟨_, step_of_accepted_eq hr ha, by simp [commandOp, opFlashTimeGet, bigEndianReply]⟩

/-- Settles O43: the FLASH_TIME_SET leaves `v` in FDUR, every further cycle keeps it, by induction over the cycles,
and the FLASH_TIME_GET replies it. -/
theorem durationIsReadBackCyclesLater : Obligations.DurationIsReadBackCyclesLater := by
  intro s t u v k hr ha hs hduring hrun
  have hfdur : u.regs.fdur = v :=
    runCycles_keeps (I := fun w => w.regs.fdur = v)
      (fun _ _ hP hI hstep => (step_keeps_fdur hP.1 hP.2 hstep).trans hI)
      (fdur_of_flashTimeSet_accepted hr ha hs) hduring hrun
  refine ⟨hfdur, fun x hru hget => ?_⟩
  obtain ⟨w, hw, hreply⟩ := step_flashTimeGet_reply hru hget
  exact ⟨w, _, _, hw, hreply, hfdur ▸ highByte_lowByte_toNat u.regs.fdur⟩

end Sys2Proof.Machine
end

section
/-! PROOFS of the family spec/30_encoding.md, with the lemmas they use. First, decoding under a legal code
assignment as an inverse of encoding. -/

namespace Sys2Proof

variable {c : CmdCode} {cmd : Byte} {v : Word}

/-! The seven codes of a legal assignment (R75, R76) -/

theorem CmdCode.wf_iff_perm : c.wf = true ↔ c.toList.Perm [0x01, 0x02, 0x03, 0x04, 0x05, 0x06, 0x07] :=
  List.isPerm_iff

theorem CmdCode.nodup_toList (h : c.wf = true) : c.toList.Nodup :=
  (wf_iff_perm.mp h).nodup_iff.mpr (by decide)

theorem CmdCode.not_mem_toList_iff (h : c.wf = true) : cmd ∉ c.toList ↔ cmd = 0x00 ∨ 8 ≤ cmd.toNat := by
  rw [(wf_iff_perm.mp h).mem_iff]
  simp only [List.mem_cons, List.not_mem_nil, or_false]
  bv_omega

/-! Decoding and encoding (R73, R74) -/

theorem Instr.wf_unknown : (Instr.unknown cmd v).wf c = true ↔ cmd ∉ c.toList := by
  simp [Instr.wf]

/-- Decoding gives only instructions that stand for a request, under any assignment. -/
theorem wf_decode (c : CmdCode) (q : Request) : (decode c q).wf c = true := by
  unfold decode
  repeat (split; rfl)
  simp_all [Instr.wf, CmdCode.toList]

/-- Decoding undoes encoding: the earlier rows of the table do not match, for their codes are other codes. -/
theorem decode_encode {i : Instr} (h : c.wf = true) (hi : i.wf c = true) : decode c (encode c i) = i := by
  have hn := CmdCode.nodup_toList h
  simp only [CmdCode.toList, List.nodup_cons, List.mem_cons, List.not_mem_nil, not_or] at hn
  cases i with
  | unknown cmd v =>
    simp only [Instr.wf_unknown, CmdCode.toList, List.mem_cons, not_or] at hi
    simp [decode, encode, Instr.code, Instr.value, hi]
  | _ => simp [decode, encode, Instr.code, Instr.value, hn, Ne.symm]

theorem decode_eq_unknown_iff (h : c.wf = true) : decode c ⟨cmd, v⟩ = .unknown cmd v ↔ cmd ∉ c.toList :=
  ⟨fun hd => Instr.wf_unknown.mp (hd ▸ wf_decode c ⟨cmd, v⟩),
    fun hc => decode_encode (i := .unknown cmd v) h (Instr.wf_unknown.mpr hc)⟩

/-- The value field passes through decoding, whichever row the code selects (R73). -/
theorem decode_withValue (c : CmdCode) (cmd : Byte) (v v' : Word) :
    decode c ⟨cmd, v'⟩ = Machine.withValue v' (decode c ⟨cmd, v⟩) := by
  simp only [decode, apply_ite (Machine.withValue v')]
  rfl

/-- Settles O2: each row is decoding after encoding, the reserved codes are UNKNOWN's, the value passes through. -/
theorem decodingLooksAtTheCodeOnly : Obligations.DecodingLooksAtTheCodeOnly := by
  intro c h v
  have row (i : Instr) (hi : i.wf c = true) : decode c (encode c i) = i := decode_encode h hi
  exact ⟨row (.trigger v) rfl, row (.flashAndTrigger v) rfl, row (.lightOn v) rfl, row (.lightOff v) rfl,
    row (.lightState v) rfl, row (.flashTimeSet v) rfl, row (.flashTimeGet v) rfl,
    fun _ hc => (decode_eq_unknown_iff h).mpr hc, fun cmd v' => decode_withValue c cmd v v'⟩

/-- Settles O3: UNKNOWN is what lies outside the seven codes, and these are 0x01 to 0x07 in some order. -/
theorem reservedCodesAreExactlyUnknown : Obligations.ReservedCodesAreExactlyUnknown :=
  fun _ h _ _ => (decode_eq_unknown_iff h).trans (CmdCode.not_mem_toList_iff h)

end Sys2Proof
end

section
/-! PROOFS. The lengths of the replies (R74, R77, R78). -/

namespace Sys2Proof.Machine

variable {s : State} {rep : Reply}

/-- What a command leaves at an open port (R11, R12). -/
theorem exec_open (i : Instr) (h : s.regs.trig = false) :
    exec i s = .next (commandCounters i (commitCommand (commandOp i) s)) := by
  rw [exec_eq, whenPortOpen_open h]

/-- Every command's reply has its row's length, in any registers (R74, R77). -/
theorem commandOp_reply_length (i : Instr) (r : Regs) :
    (replyBytes (commandOp i r).2).length = expectedReplyLength i := by
  cases i <;> rfl

/-- `rsp_len` counts the bytes of the reply driven (R32). -/
theorem rspLen_toNat (h : s.reply = some rep) : (rspLen s).toNat = (replyBytes rep).length := by
  rw [rspLen, h]
  cases rep <;> rfl

theorem callerAccepts_iff {i : Instr} {payload : List Byte} :
    callerAccepts i payload = true ↔ payload.length = expectedReplyLength i :=
  beq_iff_eq

/-- Settles O17: the command's operation fixes the length of its reply, which the port and the caller both count. -/
theorem replyLengthIsFixedByTheCommand : Obligations.ReplyLengthIsFixedByTheCommand := by
  intro i s h
  have hlen := commandOp_reply_length i s.regs
  have hreply : (commandCounters i (commitCommand (commandOp i) s)).reply = some (commandOp i s.regs).2 := by simp
  exact ⟨_, _, exec_open i h, hreply, hlen, (rspLen_toNat hreply).trans hlen, callerAccepts_iff.mpr hlen⟩

end Sys2Proof.Machine
end

section
/-! PROOFS of the family spec/40_trigger_commands.md, with the lemmas they use. First, the request word of an
instruction decodes to it. -/

namespace Sys2Proof

/-- Decoding undoes encoding, on request words too (R70, R73). -/
theorem decodeWord_encodeWord {c : CmdCode} {i : Instr} (h : c.wf = true) (hi : i.wf c = true) :
    decodeWord c (encodeWord c i) = i := by
  rw [decodeWord, encodeWord, requestOfWord_word, decode_encode h hi]

theorem specCmdCode_wf : specCmdCode.wf = true := by decide

end Sys2Proof
end

section
/-! PROOFS. What one operation of the event level can do, and so which operations clear TRIG and which set TARM
(R90, R92). -/

namespace Sys2Proof.Machine

variable {p : Params} {op : EventOp} {r r' : Regs} {rep : Option Reply} {i : Instr}

/-- One operation of the event level does one of four things, each where it is enabled (R8, R12). -/
theorem eventStep_cases (h : eventStep p op r = some (r', rep)) :
    (op = .reset ∧ r' = resetRegs p ∧ rep = none) ∨
    (op = .tick ∧ r.tarm = true ∧ r' = tick r ∧ rep = none) ∨
    (op = .release ∧ r.trig = true ∧ r' = release r ∧ rep = none) ∨
    (∃ i, op = .cmd i ∧ r.trig = false ∧ r' = (commandOp i r).1 ∧ rep = some (commandOp i r).2) := by
  obtain ⟨hen, heff⟩ := eventStep_eq_some.mp h
  cases op <;> cases heff
  case reset => exact .inl ⟨rfl, rfl, rfl⟩
  case tick => exact .inr (.inl ⟨rfl, hen, rfl, rfl⟩)
  case release => exact .inr (.inr (.inl ⟨rfl, hen, rfl, rfl⟩))
  case cmd i => exact .inr (.inr (.inr ⟨i, rfl, by simpa [eventEnabled] using hen, rfl, rfl⟩))

/-- An asserted trigger line falls only by RELEASE or RESET: a TICK keeps it and the port is closed (R31, R90). -/
theorem eventStep_clears_trig (h : eventStep p op r = some (r', rep)) (ht : r.trig = true)
    (ht' : r'.trig = false) : op = .release ∨ op = .reset := by
  obtain ⟨rfl, -⟩ | ⟨-, -, rfl, -⟩ | ⟨rfl, -⟩ | ⟨i, -, hopen, -⟩ := eventStep_cases h
  · exact .inr rfl
  · simp [ht] at ht'
  · exact .inl rfl
  · simp [ht] at hopen

/-- TARM as a command leaves it: only FLASH_AND_TRIGGER writes it (R24, R92). -/
theorem commandOp_tarm (r : Regs) (h : ∀ v, i ≠ .flashAndTrigger v) : (commandOp i r).1.tarm = r.tarm := by
  cases i with
  | flashAndTrigger v => exact absurd rfl (h v)
  | _ => rfl

/-- The timer is armed only by FLASH_AND_TRIGGER: RESET disarms it, a TICK happens only while it is armed, and
RELEASE and the other commands leave TARM alone (R92, R128). -/
theorem eventStep_sets_tarm (h : eventStep p op r = some (r', rep)) (ht : r.tarm = false)
    (ht' : r'.tarm = true) : ∃ v, op = .cmd (.flashAndTrigger v) := by
  obtain ⟨-, rfl, -⟩ | ⟨-, harmed, -⟩ | ⟨-, -, rfl, -⟩ | ⟨i, rfl, -, rfl, -⟩ := eventStep_cases h
  · simp at ht'
  · simp [ht] at harmed
  · simp [ht] at ht'
  · by_contra hne
    have hi : ∀ v, i ≠ .flashAndTrigger v := fun v hv => hne ⟨v, congrArg _ hv⟩
    simp [commandOp_tarm r hi, ht] at ht'

/-- Settles O8: the operation at an open port is the whole next state, and only it can set TARM. -/
theorem flashAndTriggerArmsTheTimer : Obligations.FlashAndTriggerArmsTheTimer :=
  ⟨fun v _ h => ⟨decodeWord_encodeWord (i := .flashAndTrigger v) specCmdCode_wf rfl,
      exec_open (.flashAndTrigger v) h⟩,
    fun _ _ _ _ _ => eventStep_sets_tarm⟩

/-- Settles O7: the operation at an open port is the whole next state; while TRIG is 1, RELEASE alone of RELEASE and
CMD is enabled, and nothing but RELEASE or RESET clears TRIG. -/
theorem triggerAssertsTheTriggerLine : Obligations.TriggerAssertsTheTriggerLine := by
  refine ⟨fun v s h => ⟨decodeWord_encodeWord (i := .trigger v) specCmdCode_wf rfl, exec_open (.trigger v) h⟩,
    fun p r ht => ?_⟩
  have hclosed (i : Instr) : eventEnabled (.cmd i) r = false := by simp [eventEnabled, ht]
  exact ⟨ht, hclosed, eventStep_eq_some.mpr ⟨ht, rfl⟩, fun _ _ _ h => eventStep_clears_trig h ht⟩

end Sys2Proof.Machine
end

section
/-! PROOFS of the family spec/41_lamp_commands.md, with the lemmas they use: the flash line while the lamp holds it,
and the line read as its two causes. -/

namespace Sys2Proof.Machine

variable {r : Regs}

/-- A TICK leaves the line asserted while the lamp holds it: at expiry FLASH takes LAMP, before it FLASH stays (R125). -/
theorem tick_flash_of_lamp (hl : r.lamp = true) (hf : r.flash = true) : (tick r).flash = true := by
  rw [tick_flash, hl, hf, ite_self]

/-- The line is asserted exactly while the lamp or the armed timer holds it (R34). -/
theorem FlashIsLampOrArmed.flash_iff (h : FlashIsLampOrArmed r) :
    r.flash = true ↔ r.lamp = true ∨ r.tarm = true := by
  rw [h, Bool.or_eq_true]

/-- Settles O9: the operation at an open port is the whole next state; it keeps the port open, so the second
LIGHT_ON happens and writes what already stands; a TICK keeps the line with LAMP on. -/
theorem lightOnSetsLampAndFlash : Obligations.LightOnSetsLampAndFlash := fun v _ h =>
  ⟨decodeWord_encodeWord (i := .lightOn v) specCmdCode_wf rfl, _, exec_open (.lightOn v) h, rfl,
    exec_open (.lightOn v) h, tick_flash_of_lamp rfl rfl⟩

/-- Settles O10: the operation at an open port is the whole next state. -/
theorem lightOffDropsTheLineUnlessArmed : Obligations.LightOffDropsTheLineUnlessArmed := fun v _ h =>
  ⟨decodeWord_encodeWord (i := .lightOff v) specCmdCode_wf rfl, exec_open (.lightOff v) h⟩

/-- Settles O11: the reply is the line by the operation itself, and the line's two causes under the invariant of
R34. -/
theorem lightStateReportsTheLine : Obligations.LightStateReportsTheLine := by
  intro v s h
  have hexec : exec (.lightState v) s =
      .next { s with reply := some (.one (if s.regs.flash = true then 0x01 else 0x00)) } :=
    exec_open (.lightState v) h
  refine ⟨decodeWord_encodeWord (i := .lightState v) specCmdCode_wf rfl, hexec, fun hinv => ?_⟩
  simp only [hexec, hinv.flash_iff]

end Sys2Proof.Machine
end

section
/-! PROOFS of the family spec/42_duration_commands.md, with the lemmas they use: the reply port while a 16-bit quantity
is replied. -/

namespace Sys2Proof.Machine

/-- The two bytes of a 16-bit quantity, the high one first, are the quantity (R52). -/
theorem highByte_append_lowByte (w : Word) : highByte w ++ lowByte w = w :=
  (BitVec.extractLsb'_append_extractLsb'_eq_extractLsb' rfl).trans BitVec.extractLsb'_eq_self

/-- A quantity replied big-endian stands on the reply port as a payload of length 2 with the quantity as its data
(R32, R52). -/
theorem replyPort_of_bigEndianReply {s : State} {w : Word} (h : s.reply = some (bigEndianReply w)) :
    rspLen s = 2 ∧ rspData s = w := by
  simp only [rspLen, rspData, h, bigEndianReply, highByte_append_lowByte, and_self]

/-- Settles O12: the operation at an open port is the whole next state; it keeps the port open, so the FLASH_TIME_GET
happens and replies the value's two bytes. -/
theorem flashTimeSetWritesTheDuration : Obligations.FlashTimeSetWritesTheDuration := fun v _ h =>
  ⟨decodeWord_encodeWord (i := .flashTimeSet v) specCmdCode_wf rfl, _, exec_open (.flashTimeSet v) h, rfl,
    fun v' => ⟨_, highByte v, lowByte v, exec_open (.flashTimeGet v') h, rfl, highByte_lowByte_toNat v⟩⟩

/-- Settles O13: the operation at an open port is the whole next state, and its reply is FDUR big-endian. -/
theorem flashTimeGetRepliesTheDuration : Obligations.FlashTimeGetRepliesTheDuration := fun v _ h =>
  ⟨decodeWord_encodeWord (i := .flashTimeGet v) specCmdCode_wf rfl, _, exec_open (.flashTimeGet v) h, rfl,
    replyPort_of_bigEndianReply rfl⟩

end Sys2Proof.Machine
end

section
/-! PROOFS of the family spec/43_unknown_command.md, with the lemmas they use: a reserved code under any legal
assignment, and the cycle that accepts one against the cycle that accepts nothing. -/

namespace Sys2Proof.Machine

variable {s : State} {cmd : Byte} {v : Word}

/-- At a closed port no command is enabled, UNKNOWN no more than another (R31). -/
theorem eventEnabled_cmd_closed (i : Instr) {r : Regs} (h : r.trig = true) : eventEnabled (.cmd i) r = false := by
  simp [eventEnabled, h]

/-- A reserved code is UNKNOWN's under every legal assignment, as the seven codes are 0x01 to 0x07 (R75, R76). -/
theorem decode_of_reserved {c : CmdCode} (h : c.wf = true) (hc : cmd = 0x00 ∨ 8 ≤ cmd.toNat) :
    decode c ⟨cmd, v⟩ = .unknown cmd v :=
  (reservedCodesAreExactlyUnknown c h cmd v).mpr hc

/-- A cycle that accepts an UNKNOWN leaves what phase 1 leaves, with the empty reply (R120, R148). -/
theorem step_of_unknown_accepted (hr : (currentInputs s).rst = false)
    (ha : acceptedInstr s = some (.unknown cmd v)) :
    step s = .next { tickPhase (beginCycle s) with reply := some .empty } :=
  step_of_accepted_eq hr ha

/-- A cycle that accepts nothing drives no reply (R32). -/
theorem step_reply_of_not_accepted (hr : (currentInputs s).rst = false) (ha : acceptedInstr s = none) :
    ∃ t, step s = .next t ∧ t.reply = none :=
  ⟨_, step_of_not_accepted hr ha, by simp [afterPhases, beginCycle]⟩

/-- Settles O14: a reserved code is UNKNOWN, whose operation at an open port is the empty reply alone; presented there
it is accepted as any request is, and at a closed port nothing is. -/
theorem unknownCommandIsSilentlyIgnored : Obligations.UnknownCommandIsSilentlyIgnored := by
  intro cmd v s hc
  refine ⟨decode_of_reserved specCmdCode_wf hc, exec_open (.unknown cmd v), eventEnabled_cmd_closed _, fun hin => ?_⟩
  have hr : (currentInputs s).rst = false := by rw [hin]
  refine ⟨fun hopen => ?_, fun hclosed => ?_⟩
  · obtain ⟨hreq, hinstr⟩ := accepted_of_presented hin hopen
    exact ⟨hreq, fun hwf => step_of_unknown_accepted hr (hinstr.trans (congrArg some (decode_of_reserved hwf hc)))⟩
  · obtain ⟨hreq, hinstr⟩ := accepted_of_trig hclosed
    exact ⟨hreq, step_reply_of_not_accepted hr hinstr⟩

end Sys2Proof.Machine
end

section
/-! PROOFS of the family spec/45_trigger_release.md, with the lemmas they use: an operation of the event level where it
is not enabled, and the cycle in which a RELEASE is due. -/

namespace Sys2Proof.Machine

variable {s : State} {p : Params} {op : EventOp} {r : Regs}

/-- An operation does not happen exactly where it is not enabled (R12). -/
theorem eventStep_eq_none : eventStep p op r = none ↔ eventEnabled op r = false := by
  unfold eventStep
  split <;> simp_all

/-- A RELEASE is due only while TRIG is 1 (R135, R147). -/
theorem trig_of_releaseDue (h : releaseDue s = true) : s.regs.trig = true :=
  (Bool.and_eq_true_iff.mp h).1

theorem releasePhase_of_due (h : releaseDue s = true) :
    releasePhase s = { s with regs := release s.regs, hcnt := 0 } :=
  if_pos h

/-- Phase 1 neither makes a RELEASE due nor holds one off: the two phases are TICK's part, then the RELEASE (R145,
R147). -/
theorem afterPhases_of_releaseDue (h : releaseDue s = true) :
    afterPhases s = { tickPhase (beginCycle s) with regs := release (tickPhase (beginCycle s)).regs, hcnt := 0 } :=
  releasePhase_of_due (releaseDue_tickPhase.trans h)

/-- The whole next state of a cycle in which a RELEASE is due: the port is still closed, so no request is taken,
whatever is presented (R135, R148). -/
theorem step_of_releaseDue (hr : (currentInputs s).rst = false) (h : releaseDue s = true) :
    step s =
      .next { tickPhase (beginCycle s) with regs := release (tickPhase (beginCycle s)).regs, hcnt := 0 } := by
  have hclosed : acceptedInstr s = none := (accepted_of_trig (trig_of_releaseDue h)).2
  rw [step_of_not_accepted hr hclosed, afterPhases_of_releaseDue h]

/-- Outside reset the port is open where TRIG is 0 (R31). -/
theorem reqReady_of_trig (ht : s.regs.trig = false) (hr : (currentInputs s).rst = false) : reqReady s = true := by
  simp [reqReady, ht, hr]

/-- Settles O20: at the event level TRIG is RELEASE's enabling condition and all it writes; at the clocked level the
due RELEASE follows phase 1 and leaves TRIG 0, which opens the port. -/
theorem releaseDropsTheTriggerLine : Obligations.ReleaseDropsTheTriggerLine := by
  refine ⟨fun p r => ⟨fun ht => ?enabled, fun ht => ?disabled⟩, fun s hr hd => ?clocked⟩
  case enabled => exact eventStep_eq_some.mpr ⟨ht, rfl⟩
  case disabled => exact eventStep_eq_none.mpr ht
  case clocked => exact ⟨_, step_of_releaseDue hr hd, rfl, reqReady_of_trig rfl⟩

end Sys2Proof.Machine
end

section
/-! PROOFS of the family spec/60_exceptions.md, with the lemmas they use: that every cycle completes, and what each
kind of cycle leaves in the parameters and the input samples. -/

namespace Sys2Proof.Machine

variable {s t : State}

@[simp] theorem afterPhases_params : (afterPhases s).params = s.params := by simp [afterPhases]
@[simp] theorem afterPhases_inputs : (afterPhases s).inputs = s.inputs.tail := by simp [afterPhases]

/-- Each of the three kinds of cycle completes; an accepted command does because its port is open (R165, R167). -/
theorem exists_step_eq_next (s : State) : ∃ t, step s = .next t := by
  cases hr : (currentInputs s).rst with
  | true => exact ⟨_, step_of_rst hr⟩
  | false =>
    cases ha : acceptedInstr s with
    | some i => exact ⟨_, step_of_accepted_eq hr ha⟩
    | none => exact ⟨_, step_of_not_accepted hr ha⟩

/-- No step changes the parameters (R6, R193). -/
theorem step_params (h : step s = .next t) : t.params = s.params := by
  obtain ⟨-, rfl⟩ | ⟨i, -, -, -, rfl⟩ | ⟨-, -, rfl⟩ := step_cases h
  case inl => rfl
  case inr.inl => simp
  case inr.inr => exact afterPhases_params

/-- Every step consumes the input sample of its own cycle and no other (R145). -/
theorem step_inputs (h : step s = .next t) : t.inputs = s.inputs.tail := by
  obtain ⟨-, rfl⟩ | ⟨i, -, -, -, rfl⟩ | ⟨-, -, rfl⟩ := step_cases h
  case inl => rfl
  case inr.inl => simp
  case inr.inr => exact afterPhases_inputs

/-- Settles O23: every kind of cycle completes, and each keeps the parameters and consumes one sample. -/
theorem everyStepHasANextState : Obligations.EveryStepHasANextState := by
  intro s
  obtain ⟨t, h⟩ := exists_step_eq_next s
  exact ⟨t, h, step_params h, step_inputs h⟩

end Sys2Proof.Machine
end

section
/-! PROOFS of the family of the whole model, with the lemmas they use. First, the round trips of the coding of requests
(R70, R73, R74). -/

namespace Sys2Proof

/-- Encoding undoes decoding: the code and the value field are both carried by the instruction (R72, R73). -/
theorem encode_decode (c : CmdCode) (q : Request) : encode c (decode c q) = q := by
  rw [encode, code_decode, value_decode]

/-- On request words too (R70). -/
theorem encodeWord_decodeWord (c : CmdCode) (w : BitVec 24) : encodeWord c (decodeWord c w) = w := by
  rw [encodeWord, decodeWord, encode_decode, word_requestOfWord]

/-- A request word given as a number is that request word (R70). -/
theorem requestWordOfNat_toNat (w : BitVec 24) : requestWordOfNat w.toNat = .ok w := by
  rw [requestWordOfNat, if_pos w.isLt, BitVec.ofNat_toNat, BitVec.setWidth_eq]

theorem decodeNat_toNat (c : CmdCode) (w : BitVec 24) : decodeNat c w.toNat = .ok (decodeWord c w) := by
  rw [decodeNat, requestWordOfNat_toNat]

/-- Settles O4: decoding undoes encoding, and a word's number is read as the word. -/
theorem decodeOfEncodeIsTheInstruction : Obligations.DecodeOfEncodeIsTheInstruction := by
  intro c i hc hi
  have hword : decodeWord c (encodeWord c i) = i := decodeWord_encodeWord hc hi
  exact ⟨hword, by rw [decodeNat_toNat, hword]⟩

/-- Settles O5: decoding gives only instructions that stand for a request, and encoding undoes it. -/
theorem encodeOfDecodeIsTheWord : Obligations.EncodeOfDecodeIsTheWord :=
  fun c w => ⟨wf_decode c (requestOfWord w), encodeWord_decodeWord c w⟩

/-- Settles O1: the ten words are literals, so each row is the decoder run on its word. -/
theorem tableWordsDecodeToTheirRows : Obligations.TableWordsDecodeToTheirRows := by
  unfold Obligations.TableWordsDecodeToTheirRows
  decide

end Sys2Proof
end

section
/-! PROOFS. What a command can write, one lemma per register (the Writes clauses of R90 to R120), and commands that do
nothing or differ in nothing. -/

namespace Sys2Proof.Machine

variable {i : Instr} {s t : State}

theorem commandOp_fcnt (r : Regs) (h : ∀ v, i ≠ .flashAndTrigger v) : (commandOp i r).1.fcnt = r.fcnt := by
  cases i with
  | flashAndTrigger v => exact absurd rfl (h v)
  | _ => rfl

theorem commandOp_lamp (r : Regs) (h : ∀ v, ¬ (i = .lightOn v ∨ i = .lightOff v)) :
    (commandOp i r).1.lamp = r.lamp := by
  cases i with
  | lightOn v => exact absurd (.inl rfl) (h v)
  | lightOff v => exact absurd (.inr rfl) (h v)
  | _ => rfl

theorem commandOp_trig (r : Regs) (h : ∀ v, ¬ (i = .trigger v ∨ i = .flashAndTrigger v)) :
    (commandOp i r).1.trig = r.trig := by
  cases i with
  | trigger v => exact absurd (.inl rfl) (h v)
  | flashAndTrigger v => exact absurd (.inr rfl) (h v)
  | _ => rfl

theorem commandOp_flash (r : Regs)
    (h : ∀ v, ¬ (i = .flashAndTrigger v ∨ i = .lightOn v ∨ i = .lightOff v)) :
    (commandOp i r).1.flash = r.flash := by
  cases i with
  | flashAndTrigger v => exact absurd (.inl rfl) (h v)
  | lightOn v => exact absurd (.inr (.inl rfl)) (h v)
  | lightOff v => exact absurd (.inr (.inr rfl)) (h v)
  | _ => rfl

theorem commandCounters_pre (s : State) (h : ∀ v, i ≠ .flashAndTrigger v) : (commandCounters i s).pre = s.pre := by
  cases i with
  | flashAndTrigger v => exact absurd rfl (h v)
  | _ => rfl

/-- At a closed port a command does not happen (R12, R31; log 5). -/
theorem exec_closed (i : Instr) (h : s.regs.trig = true) : exec i s = .next (withReply s none) := by
  rw [exec_eq, whenPortOpen_closed h]

/-- What a command leaves, by the port: itself carried out whole, or nothing (R12). -/
theorem exec_cases (h : exec i s = .next t) :
    (s.regs.trig = false ∧ t = commandCounters i (commitCommand (commandOp i) s)) ∨
    (s.regs.trig = true ∧ t = withReply s none) := by
  cases ht : s.regs.trig with
  | false => cases (exec_open i ht).symm.trans h; exact .inl ⟨rfl, rfl⟩
  | true => cases (exec_closed i ht).symm.trans h; exact .inr ⟨rfl, rfl⟩

theorem exec_withValue (v : Word) (s : State) (h : ∀ x, i ≠ .flashTimeSet x) : exec (withValue v i) s = exec i s := by
  cases i with
  | flashTimeSet x => exact absurd rfl (h x)
  | _ => rfl

/-- Settles O18: at an open port each register by the lemma of its writers; at a closed port nothing is written. -/
theorem commandsWriteOnlyTheirRegisters : Obligations.CommandsWriteOnlyTheirRegisters := by
  intro i s t h
  obtain ⟨-, rfl⟩ | ⟨-, rfl⟩ := exec_cases h
  case inl =>
    simp only [commandCounters_hcnt, commandCounters_inputs, commandCounters_params, commandCounters_regs,
      commitCommand_hcnt, commitCommand_inputs, commitCommand_params, commitCommand_regs, true_and]
    exact ⟨fun hne => by_contra fun hi => hne (commandCounters_pre _ (not_exists.mp hi)),
      fun hne => by_contra fun hi => hne (commandOp_fdur _ (not_exists.mp hi)),
      fun hne => by_contra fun hi => hne (commandOp_fcnt _ (not_exists.mp hi)),
      fun hne => by_contra fun hi => hne (commandOp_tarm _ (not_exists.mp hi)),
      fun hne => by_contra fun hi => hne (commandOp_lamp _ (not_exists.mp hi)),
      fun hne => by_contra fun hi => hne (commandOp_trig _ (not_exists.mp hi)),
      fun hne => by_contra fun hi => hne (commandOp_flash _ (not_exists.mp hi))⟩
  case inr => simp

/-- Settles O15: at a closed port all that a command does is to give no reply. -/
theorem closedPortPerformsNoCommand : Obligations.ClosedPortPerformsNoCommand :=
  fun i _ h => exec_closed i h

/-- Settles O16: no meaning but FLASH_TIME_SET's looks at its value. -/
theorem valueFieldIsIgnoredButBySet : Obligations.ValueFieldIsIgnoredButBySet :=
  fun _ v s h => exec_withValue v s h

end Sys2Proof.Machine
end

section
/-! PROOFS. RESET and the state it leaves (R39, R153, R190, R192). -/

namespace Sys2Proof.Machine

theorem tickCycles_pos {p : Params} (h : p.wf) : 0 < tickCycles p :=
  Nat.mul_pos h.2.1 h.1

theorem holdCycles_pos {p : Params} (h : p.wf) : 0 < holdCycles p :=
  Nat.add_pos_left (Nat.mul_pos h.2.2.1 h.1) _

/-- RESET leaves both counters at 0 and both pulses off, which meets every invariant (R34, R35, R155). -/
theorem inv_of_reset {s : State} (hp : s.params.wf) (hr : s.regs = resetRegs s.params) (hpre : s.pre = 0)
    (hhcnt : s.hcnt = 0) : Inv s where
  params := hp
  flash := by simp [FlashIsLampOrArmed, hr]
  count := by simp [CountOnlyWhileArmed, hr]
  preLt := hpre ▸ tickCycles_pos hp
  hcntLt := hhcnt ▸ holdCycles_pos hp
  preZero _ := hpre
  hcntZero _ := hhcnt

/-- A disarmed timer has no count of 0 to keep inside the hold. -/
theorem zeroCountInsideHold_of_disarmed {s : State} (h : s.regs.tarm = false) : ZeroCountInsideHold s :=
  fun ht => absurd (h.symm.trans ht) Bool.false_ne_true

/-- The level of a deasserted line under its polarity (R33). -/
theorem pinLevel_false (activeHigh : Bool) : pinLevel activeHigh false = !activeHigh := by
  rw [pinLevel_eq_beq, Bool.false_beq]

/-- Settles O21: a reset cycle accepts nothing and is RESET alone. -/
theorem resetOverridesEverything : Obligations.ResetOverridesEverything := by
  intro s valid cmd value rest hin
  have hcur : currentInputs s = ⟨true, valid, cmd, value⟩ := by rw [currentInputs, hin, List.headD_cons]
  have hr : (currentInputs s).rst = true := by rw [hcur]
  refine ⟨(accepted_of_rst hr).1, ?_⟩
  rw [step_of_rst hr, resetRegisters, beginCycle, hin]
  rfl

/-- Settles O22: the registers by RESET's definition; both lines are down, which opens the port. -/
theorem stateAfterReset : Obligations.StateAfterReset :=
  ⟨rfl, fun _ => ⟨rfl, rfl, rfl, reqReady_of_trig rfl rfl, rfl, pinLevel_false _, pinLevel_false _⟩⟩

/-- Settles O31: the reset state is one RESET leaves, and its timer is disarmed. -/
theorem resetStateMeetsTheInvariants : Obligations.ResetStateMeetsTheInvariants :=
  fun _ _ hp => ⟨inv_of_reset hp rfl rfl rfl, zeroCountInsideHold_of_disarmed rfl⟩

end Sys2Proof.Machine
end

section
/-! PROOFS. The event level: what each operation keeps (R34, R35), TICK (R125 to R132) and its order against a command
(R157). -/

namespace Sys2Proof.Machine

variable {p : Params} {op : EventOp} {ops : List EventOp} {r r' : Regs} {rep : Option Reply} {reps : List Reply}
  {i : Instr}

/-! The two register invariants -/

theorem FlashIsLampOrArmed.tick (h : FlashIsLampOrArmed r) : FlashIsLampOrArmed (tick r) := by
  obtain ⟨-, he⟩ | ⟨-, he⟩ := tick_cases r <;> rw [he]
  · exact (Bool.or_false _).symm
  · exact h

theorem CountOnlyWhileArmed.tick (h : CountOnlyWhileArmed r) : CountOnlyWhileArmed (tick r) := by
  obtain ⟨hx, he⟩ | ⟨-, he⟩ := tick_cases r <;> rw [he]
  · exact fun hne => absurd (zeroDetect_eq_true.mp hx) hne
  · refine fun hne => h fun h0 => hne ?_
    rw [h0, countDown_zero]

theorem FlashIsLampOrArmed.command (i : Instr) (h : FlashIsLampOrArmed r) :
    FlashIsLampOrArmed (commandOp i r).1 := by
  cases i with
  | flashAndTrigger v => exact (Bool.or_true _).symm
  | lightOn v => exact (Bool.true_or _).symm
  | lightOff v => exact (Bool.false_or _).symm
  | _ => exact h

theorem CountOnlyWhileArmed.command (i : Instr) (h : CountOnlyWhileArmed r) :
    CountOnlyWhileArmed (commandOp i r).1 := by
  cases i with
  | flashAndTrigger v => exact fun _ => rfl
  | _ => exact h

theorem flashIsLampOrArmed_reset (p : Params) : FlashIsLampOrArmed (resetRegs p) := rfl

theorem countOnlyWhileArmed_reset (p : Params) : CountOnlyWhileArmed (resetRegs p) := fun h => absurd rfl h

theorem eventStep_keeps_flash (h : eventStep p op r = some (r', rep)) (hI : FlashIsLampOrArmed r) :
    FlashIsLampOrArmed r' := by
  obtain ⟨-, rfl, -⟩ | ⟨-, -, rfl, -⟩ | ⟨-, -, rfl, -⟩ | ⟨i, -, -, rfl, -⟩ := eventStep_cases h
  · exact flashIsLampOrArmed_reset p
  · exact hI.tick
  · exact hI
  · exact hI.command i

theorem eventStep_keeps_count (h : eventStep p op r = some (r', rep)) (hI : CountOnlyWhileArmed r) :
    CountOnlyWhileArmed r' := by
  obtain ⟨-, rfl, -⟩ | ⟨-, -, rfl, -⟩ | ⟨-, -, rfl, -⟩ | ⟨i, -, -, rfl, -⟩ := eventStep_cases h
  · exact countOnlyWhileArmed_reset p
  · exact hI.tick
  · exact hI
  · exact hI.command i

/-- The induction over schedules: what every operation keeps, a run keeps. -/
theorem eventRun_keeps {I : Regs → Prop}
    (hstep : ∀ op r r' rep, eventStep p op r = some (r', rep) → I r → I r')
    (h : eventRun p ops r = some (r', reps)) (hI : I r) : I r' := by
  induction ops generalizing r reps with
  | nil => cases h; exact hI
  | cons op ops ih =>
    obtain ⟨q, rep, reps', hop, hrest, -⟩ := eventRun_cons.mp h
    exact ih hrest (hstep op r q rep hop hI)

theorem eventRun_keeps_flash (h : eventRun p ops r = some (r', reps)) (hI : FlashIsLampOrArmed r) :
    FlashIsLampOrArmed r' :=
  eventRun_keeps (fun _ _ _ _ => eventStep_keeps_flash) h hI

theorem eventRun_keeps_count (h : eventRun p ops r = some (r', reps)) (hI : CountOnlyWhileArmed r) :
    CountOnlyWhileArmed r' :=
  eventRun_keeps (fun _ _ _ _ => eventStep_keeps_count) h hI

/-- Settles O34: RESET's registers meet both invariants and every operation keeps them. -/
theorem eventLevelRunsKeepTheInvariants : Obligations.EventLevelRunsKeepTheInvariants :=
  fun p _ _ _ h =>
    ⟨eventRun_keeps_flash h (flashIsLampOrArmed_reset p), eventRun_keeps_count h (countOnlyWhileArmed_reset p)⟩

/-! TICK: the expiry, and the TICK before it -/

theorem expires_eq_false_iff : expires r = false ↔ 2 ≤ r.fcnt.toNat := by
  rw [← Bool.not_eq_true, expires_iff, not_le]
  exact Iff.rfl

theorem countDown_eq_zero (h : r.fcnt.toNat ≤ 1) : countDown r.fcnt = 0 :=
  zeroDetect_eq_true.mp (expires_iff.mpr h)

theorem tick_of_expiry (h : r.fcnt.toNat ≤ 1) :
    tick r = { r with fcnt := 0, flash := r.lamp, tarm := false } := by
  rw [tick, if_pos (expires_iff.mpr h), countDown_eq_zero h]
  rfl

theorem tick_before_expiry (h : 2 ≤ r.fcnt.toNat) : tick r = { r with fcnt := countDown r.fcnt } := by
  rw [tick, if_neg (Bool.eq_false_iff.mp (expires_eq_false_iff.mpr h))]

/-- An armed timer stays armed over a TICK exactly if the count was 2 or more (R125, D7). -/
theorem tick_tarm_of_armed (h : r.tarm = true) : (tick r).tarm = decide (2 ≤ r.fcnt.toNat) := by
  rw [tick_tarm, h, Bool.and_true, Bool.not_eq_eq_eq_not, Bool.eq_iff_iff, expires_iff]
  simp

theorem tick_fcnt_toNat (r : Regs) : (tick r).fcnt.toNat = r.fcnt.toNat - 1 := by
  rw [tick_fcnt, countDown_toNat]

/-- Settles O19: TARM is TICK's enabling condition, and its effect is the expiry or the countdown by the count. -/
theorem tickCountsDownAndExpiresAtZero : Obligations.TickCountsDownAndExpiresAtZero := by
  refine fun p r => ⟨fun ht => eventStep_eq_none.mpr ht, fun ht => ?_⟩
  refine ⟨tick r, eventStep_eq_some.mpr ⟨ht, rfl⟩, tick_fcnt_toNat r, tick_fdur r, tick_lamp r, tick_trig r,
    fun h2 => ?counts, fun h1 => ?expires⟩
  case counts => rw [tick_before_expiry h2]; exact ⟨ht, rfl⟩
  case expires => rw [tick_of_expiry h1]; exact ⟨rfl, rfl⟩

/-! A TICK and a command, in both orders -/

/-- Every command but FLASH_AND_TRIGGER commutes with a TICK on the registers (R157). -/
theorem tick_commandOp_comm (r : Regs) (h : ∀ v, i ≠ .flashAndTrigger v) :
    tick (commandOp i r).1 = (commandOp i (tick r)).1 := by
  have hfcnt : (commandOp i r).1.fcnt = r.fcnt := commandOp_fcnt r h
  cases i with
  | flashAndTrigger v => exact absurd rfl (h v)
  | _ =>
    obtain h1 | h2 := Nat.lt_or_ge r.fcnt.toNat 2
    · rw [tick_of_expiry (r := r) (by omega), tick_of_expiry (by rw [hfcnt]; omega)]
      rfl
    · rw [tick_before_expiry h2, tick_before_expiry (by rw [hfcnt]; exact h2)]
      rfl

/-- A TICK before a command changes the command's reply only if it is LIGHT_STATE's and the TICK the expiry (R157). -/
theorem commandOp_reply_tick (r : Regs) (h : (∀ v, i ≠ .lightState v) ∨ 2 ≤ r.fcnt.toNat) :
    (commandOp i (tick r)).2 = (commandOp i r).2 := by
  cases i with
  | lightState v =>
    have h2 : 2 ≤ r.fcnt.toNat := h.resolve_left fun hne => hne v rfl
    rw [tick_before_expiry h2]
    rfl
  | flashTimeGet v => exact congrArg bigEndianReply (tick_fdur r)
  | _ => rfl

theorem eventRun_tick_cmd (p : Params) (i : Instr) (ha : r.tarm = true) (ht : r.trig = false) :
    eventRun p [.tick, .cmd i] r = some ((commandOp i (tick r)).1, [(commandOp i (tick r)).2]) := by
  simp [eventRun, eventStep, eventEnabled, eventEffect, ha, ht]

theorem eventRun_cmd_tick (p : Params) (i : Instr) (ht : r.trig = false)
    (ha : (commandOp i r).1.tarm = true) :
    eventRun p [.cmd i, .tick] r = some (tick (commandOp i r).1, [(commandOp i r).2]) := by
  simp [eventRun, eventStep, eventEnabled, eventEffect, ha, ht]

/-- Settles O36: both orders happen; they agree where the command commutes with the TICK, and for the two commands
where they differ each order's outcome is the one computed. -/
theorem orderOfTickAndCommand : Obligations.OrderOfTickAndCommand := by
  refine fun p r ha ht => ⟨fun i hi => ?commutes, fun v h1 hf hl => ?lightState, fun v => ?rearm⟩
  case commutes =>
    refine ⟨_, _, _, eventRun_tick_cmd p i ha ht, ?_, fun h => by rw [commandOp_reply_tick r h]⟩
    rw [eventRun_cmd_tick p i ht ((commandOp_tarm r hi).trans ha), tick_commandOp_comm r hi]
  case lightState =>
    refine ⟨tick r, ?_, ?_⟩
    · rw [eventRun_tick_cmd p _ ha ht, tick_of_expiry h1]
      simp [commandOp, opLightState, flagReply, flagByte, hl]
    · rw [eventRun_cmd_tick p (.lightState v) ht ha]
      simp [commandOp, opLightState, flagReply, flagByte, hf]
  case rearm =>
    exact ⟨_, _, _, eventRun_tick_cmd p _ ha ht, eventRun_cmd_tick p (.flashAndTrigger v) ht rfl, tick_fdur r, rfl,
      tick_fcnt_toNat _, tick_tarm_of_armed rfl⟩

end Sys2Proof.Machine
end

section
/-! PROOFS. How many TICKs an armed timer takes (R132), by induction over schedules without a RESET or a re-arm. -/

namespace Sys2Proof.Machine

variable {p : Params} {op : EventOp} {ops : List EventOp} {r r' : Regs} {rep : Option Reply} {reps : List Reply}

theorem noResetNoArm_cons :
    noResetNoArm (op :: ops) = true ↔
      (op ≠ .reset ∧ ∀ v, op ≠ .cmd (.flashAndTrigger v)) ∧ noResetNoArm ops = true := by
  rw [noResetNoArm, List.all_cons, Bool.and_eq_true]
  refine and_congr_left' ?_
  split <;> simp_all

/-- Over an operation that is no RESET, no TICK and no re-arm, the timer stands still. -/
theorem eventStep_keeps_timer (h : eventStep p op r = some (r', rep)) (hreset : op ≠ .reset) (htick : op ≠ .tick)
    (harm : ∀ v, op ≠ .cmd (.flashAndTrigger v)) : r'.tarm = r.tarm ∧ r'.fcnt = r.fcnt := by
  obtain ⟨rfl, -⟩ | ⟨rfl, -⟩ | ⟨-, -, rfl, -⟩ | ⟨i, rfl, -, rfl, -⟩ := eventStep_cases h
  · exact absurd rfl hreset
  · exact absurd rfl htick
  · exact ⟨rfl, rfl⟩
  · have hi : ∀ v, i ≠ .flashAndTrigger v := fun v hv => harm v (congrArg _ hv)
    exact ⟨commandOp_tarm r hi, commandOp_fcnt r hi⟩

theorem eventStep_tick (h : eventStep p .tick r = some (r', rep)) : r.tarm = true ∧ r' = tick r := by
  obtain ⟨hen, heff⟩ := eventStep_eq_some.mp h
  cases heff
  exact ⟨hen, rfl⟩

/-- From a disarmed state no TICK happens in the schedule, as TICK is not enabled and nothing arms (R128). -/
theorem eventRun_disarmed (hno : noResetNoArm ops = true) (h : eventRun p ops r = some (r', reps))
    (ha : r.tarm = false) (hc : r.fcnt = 0) : ops.count .tick = 0 ∧ r'.tarm = false ∧ r'.fcnt = 0 := by
  induction ops generalizing r reps with
  | nil => cases h; exact ⟨rfl, ha, hc⟩
  | cons op ops ih =>
    obtain ⟨q, rep, reps', hop, hrest, -⟩ := eventRun_cons.mp h
    obtain ⟨⟨hreset, harm⟩, hnoRest⟩ := noResetNoArm_cons.mp hno
    have htick : op ≠ .tick := by
      rintro rfl
      exact absurd (ha.symm.trans (eventStep_tick hop).1) Bool.false_ne_true
    obtain ⟨hqa, hqc⟩ := eventStep_keeps_timer hop hreset htick harm
    rw [List.count_cons_of_ne htick]
    exact ih hnoRest hrest (hqa.trans ha) (hqc.trans hc)

/-- From an armed state: armed with the count less the TICKs so far while these are fewer than `max(FCNT, 1)`, disarmed
with a count of 0 at that many, and never more (R132, D7). -/
theorem eventRun_armed (hno : noResetNoArm ops = true) (h : eventRun p ops r = some (r', reps))
    (ha : r.tarm = true) :
    (ops.count .tick < max r.fcnt.toNat 1 ∧ r'.tarm = true ∧ r'.fcnt.toNat = r.fcnt.toNat - ops.count .tick) ∨
    (ops.count .tick = max r.fcnt.toNat 1 ∧ r'.tarm = false ∧ r'.fcnt = 0) := by
  induction ops generalizing r reps with
  | nil => cases h; exact .inl ⟨by simp, ha, by simp⟩
  | cons op ops ih =>
    obtain ⟨q, rep, reps', hop, hrest, -⟩ := eventRun_cons.mp h
    obtain ⟨⟨hreset, harm⟩, hnoRest⟩ := noResetNoArm_cons.mp hno
    by_cases htick : op = .tick
    · subst htick
      obtain ⟨-, rfl⟩ := eventStep_tick hop
      rw [List.count_cons_self]
      obtain hlt | hge := Nat.lt_or_ge r.fcnt.toNat 2
      · rw [tick_of_expiry (by omega)] at hrest
        obtain ⟨hn, hd⟩ := eventRun_disarmed hnoRest hrest rfl rfl
        exact .inr ⟨by omega, hd⟩
      · have harmed : (tick r).tarm = true := by rw [tick_tarm_of_armed ha, decide_eq_true hge]
        have hcount := tick_fcnt_toNat r
        obtain ⟨hn, hq, hc⟩ | ⟨hn, hd⟩ := ih hnoRest hrest harmed
        · exact .inl ⟨by omega, hq, by omega⟩
        · exact .inr ⟨by omega, hd⟩
    · obtain ⟨hqa, hqc⟩ := eventStep_keeps_timer hop hreset htick harm
      rw [List.count_cons_of_ne htick, ← hqc]
      exact ih hnoRest hrest (hqa.trans ha)

/-- Settles O37: the count of TICKs decides between the two cases of `eventRun_armed`; the line follows from R34. -/
theorem timerExpiresAfterItsCountOfTicks : Obligations.TimerExpiresAfterItsCountOfTicks := by
  intro p ops r r' reps ha hflash hno h
  have hflash' : r'.flash = (r'.lamp || r'.tarm) := eventRun_keeps_flash h hflash
  obtain ⟨hn, ha', hc⟩ | ⟨hn, ha', hc⟩ := eventRun_armed hno h ha
  case inl =>
    rw [ha', Bool.or_true] at hflash'
    exact ⟨hn.le, fun _ => ⟨ha', hflash', hc⟩, fun heq => absurd heq hn.ne⟩
  case inr =>
    rw [ha', Bool.or_false] at hflash'
    exact ⟨hn.le, fun hlt => absurd hn hlt.ne, fun _ => ⟨ha', hflash', hc⟩⟩

end Sys2Proof.Machine
end

section
/-! PROOFS. Progress under weak fairness (R132, R139, D18): an operation that stays enabled is performed, a RELEASE ends
the hold, and the TICKs of a timer that is not re-armed count down to its expiry. -/

namespace Sys2Proof.Machine

variable {p : Params} {o : EventOp} {r r' : Regs} {rep : Option Reply} {σ : Nat → Regs} {op : Nat → Option EventOp}
  {n m : Nat}

/-- An operation performed at an instant of a trace is a step of the event level. -/
theorem EventTrace.step_of_op (h : EventTrace p σ op) (ho : op n = some o) :
    ∃ rep, eventStep p o (σ n) = some (σ (n + 1), rep) := by
  obtain ⟨hnone, -⟩ | ⟨o', rep, ho', hstep⟩ := h n
  · simp [ho] at hnone
  · cases ho.symm.trans ho'; exact ⟨rep, hstep⟩

/-- An operation enabled at every instant from `n` on is performed at some instant from `n` on. -/
theorem WeaklyFair.performed (h : WeaklyFair σ op o) (hen : ∀ m, n ≤ m → eventEnabled o (σ m) = true) :
    ∃ m, n ≤ m ∧ op m = some o := by
  obtain ⟨m, hm, hdis | hperf⟩ := h n
  · exact absurd ((hen m hm).symm.trans hdis) Bool.noConfusion
  · exact ⟨m, hm, hperf⟩

theorem eventStep_release (h : eventStep p .release r = some (r', rep)) : r' = release r := by
  obtain ⟨-, heff⟩ := eventStep_eq_some.mp h
  cases heff
  rfl

theorem hold_ends_of_fair_release (h : EventTrace p σ op) (hfair : WeaklyFair σ op .release) (n : Nat) :
    ∃ m, n ≤ m ∧ (σ m).trig = false := by
  by_contra! hne
  have hheld (m : Nat) (hm : n ≤ m) : eventEnabled .release (σ m) = true := Bool.eq_true_of_not_eq_false (hne m hm)
  obtain ⟨m, hm, hop⟩ := hfair.performed hheld
  obtain ⟨rep, hstep⟩ := h.step_of_op hop
  exact hne (m + 1) (by omega) (congrArg Regs.trig (eventStep_release hstep))

/-- No operation but FLASH_AND_TRIGGER raises the count (R22). -/
theorem eventStep_fcnt_le (h : eventStep p o r = some (r', rep)) (harm : ∀ v, o ≠ .cmd (.flashAndTrigger v)) :
    r'.fcnt.toNat ≤ r.fcnt.toNat := by
  obtain ⟨-, rfl, -⟩ | ⟨-, -, rfl, -⟩ | ⟨-, -, rfl, -⟩ | ⟨i, rfl, -, rfl, -⟩ := eventStep_cases h
  · exact Nat.zero_le _
  · rw [tick_fcnt_toNat]; exact Nat.sub_le _ _
  · exact le_rfl
  · rw [commandOp_fcnt r fun v hv => harm v (congrArg _ hv)]

theorem EventTrace.fcnt_le (h : EventTrace p σ op)
    (harm : ∀ m v, n ≤ m → op m ≠ some (.cmd (.flashAndTrigger v))) (hm : n ≤ m) :
    (σ m).fcnt.toNat ≤ (σ n).fcnt.toNat := by
  induction m, hm using Nat.le_induction with
  | base => exact le_rfl
  | succ m hm ih =>
    refine le_trans ?_ ih
    obtain ⟨-, heq⟩ | ⟨o, rep, ho, hstep⟩ := h m
    · rw [heq]
    · exact eventStep_fcnt_le hstep fun v hv => harm m v hm (ho.trans (congrArg some hv))

/-- By strong induction on the count: the next TICK either disarms the timer or leaves a smaller count. -/
theorem pulse_ends_of_fair_tick (h : EventTrace p σ op) (hfair : WeaklyFair σ op .tick)
    (harm : ∀ m v, n ≤ m → op m ≠ some (.cmd (.flashAndTrigger v))) : ∃ m, n ≤ m ∧ (σ m).tarm = false := by
  by_contra! hne
  have harmed (m : Nat) (hm : n ≤ m) : (σ m).tarm = true := Bool.eq_true_of_not_eq_false (hne m hm)
  have hsmaller (m : Nat) (hm : n ≤ m) : ∃ m', n ≤ m' ∧ (σ m').fcnt.toNat < (σ m).fcnt.toNat := by
    obtain ⟨m', hm', hop⟩ := hfair.performed fun k hk => harmed k (hm.trans hk)
    obtain ⟨rep, hstep⟩ := h.step_of_op hop
    obtain ⟨-, hq⟩ := eventStep_tick hstep
    have hge : 2 ≤ (σ m').fcnt.toNat := by
      have hstays := harmed (m' + 1) (by omega)
      rwa [hq, tick_tarm_of_armed (harmed m' (hm.trans hm')), decide_eq_true_iff] at hstays
    have hle : (σ m').fcnt.toNat ≤ (σ m).fcnt.toNat := h.fcnt_le (fun k v hk => harm k v (hm.trans hk)) hm'
    exact ⟨m' + 1, by omega, by rw [hq, tick_fcnt_toNat]; omega⟩
  have hnever (c : Nat) : ∀ m, n ≤ m → (σ m).fcnt.toNat ≠ c := by
    induction c using Nat.strong_induction_on with
    | _ c ih =>
      rintro m hm rfl
      obtain ⟨m', hm', hlt⟩ := hsmaller m hm
      exact ih _ hlt m' hm' rfl
  exact hnever _ n le_rfl rfl

/-- Settles O38: a RELEASE that stays enabled happens and ends the hold; the TICKs of a pulse that is not re-armed bring
its count down until one is the expiry. -/
theorem pulsesEndUnderWeakFairness : Obligations.PulsesEndUnderWeakFairness :=
  fun _ _ _ h htick hrelease =>
    ⟨hold_ends_of_fair_release h hrelease, fun _ harm => pulse_ends_of_fair_tick h htick harm⟩

end Sys2Proof.Machine
end

section
/-! PROOFS. The clocked level refines the event level (R8, R156): one cycle is a run of the operations it performs. -/

namespace Sys2Proof.Machine

variable {s t : State} {p : Params} {op : EventOp} {r r' : Regs} {rep : Option Reply} {k : Nat}

theorem eventRun_singleton (h : eventStep p op r = some (r', rep)) : eventRun p [op] r = some (r', rep.toList) :=
  eventRun_cons.mpr ⟨r', rep, [], h, rfl, (List.append_nil _).symm⟩

/-- A TICK is due only while TARM is 1 (R128, R146). -/
theorem tarm_of_tickDue (h : tickDue s = true) : s.regs.tarm = true :=
  (Bool.and_eq_true_iff.mp h).1

/-! What each phase leaves, by its case (R146, R147) -/

theorem tickPhase_of_due (h : tickDue s = true) : tickPhase s = { s with regs := tick s.regs, pre := 0 } :=
  if_pos h

theorem tickPhase_of_counting (hd : tickDue s = false) (ht : s.regs.tarm = true) :
    tickPhase s = { s with pre := s.pre + 1 } := by
  simp [tickPhase, hd, ht]

theorem tickPhase_of_disarmed (ht : s.regs.tarm = false) : tickPhase s = s := by
  simp [tickPhase, tickDue, ht]

theorem releasePhase_of_holding (hd : releaseDue s = false) (ht : s.regs.trig = true) :
    releasePhase s = { s with hcnt := s.hcnt + 1 } := by
  simp [releasePhase, hd, ht]

theorem tickPhase_regs_of_not_due (h : tickDue s = false) : (tickPhase s).regs = s.regs := by
  cases ht : s.regs.tarm with
  | true => rw [tickPhase_of_counting h ht]
  | false => rw [tickPhase_of_disarmed ht]

theorem releasePhase_regs_of_not_due (h : releaseDue s = false) : (releasePhase s).regs = s.regs := by
  obtain ⟨hd, -⟩ | ⟨-, -, he⟩ | ⟨-, he⟩ := releasePhase_cases s
  · exact absurd (h.symm.trans hd) Bool.false_ne_true
  · rw [he]
  · rw [he]

/-! Each phase, and the accepted command, as a run of the event level -/

theorem eventRun_tickPhase (p : Params) (s : State) :
    eventRun p (if tickDue s then [.tick] else []) s.regs = some ((tickPhase s).regs, []) := by
  cases h : tickDue s with
  | true =>
    rw [tickPhase_of_due h]
    exact eventRun_singleton (op := .tick) (eventStep_eq_some.mpr ⟨tarm_of_tickDue h, rfl⟩)
  | false => rw [tickPhase_regs_of_not_due h]; rfl

theorem eventRun_releasePhase (p : Params) (s : State) :
    eventRun p (if releaseDue s then [.release] else []) s.regs = some ((releasePhase s).regs, []) := by
  cases h : releaseDue s with
  | true =>
    rw [releasePhase_of_due h]
    exact eventRun_singleton (op := .release) (eventStep_eq_some.mpr ⟨trig_of_releaseDue h, rfl⟩)
  | false => rw [releasePhase_regs_of_not_due h]; rfl

theorem eventRun_afterPhases (p : Params) (s : State) :
    eventRun p ((if tickDue s then [.tick] else []) ++ (if releaseDue s then [.release] else [])) s.regs =
      some ((afterPhases s).regs, []) := by
  refine eventRun_append (eventRun_tickPhase p (beginCycle s)) ?_
  have hrun := eventRun_releasePhase p (tickPhase (beginCycle s))
  rwa [releaseDue_tickPhase] at hrun

/-- One cycle is a run of its operations: RESET alone, or TICK, RELEASE and CMD as far as they happen (R145). -/
theorem step_eventRun (h : step s = .next t) :
    eventRun s.params (cycleOps s) s.regs = some (t.regs, t.reply.toList) := by
  obtain ⟨hr, rfl⟩ | ⟨i, hr, ha, ht, rfl⟩ | ⟨hr, ha, rfl⟩ := step_cases h
  case inl =>
    rw [cycleOps, if_pos hr]
    exact eventRun_singleton (eventStep_eq_some.mpr ⟨rfl, rfl⟩)
  case inr.inl =>
    rw [← afterPhases_eq_tickPhase ht]
    have hopen : (afterPhases s).regs.trig = false := by rw [afterPhases_eq_tickPhase ht]; simpa using ht
    have hcmd : eventStep s.params (.cmd i) (afterPhases s).regs =
        some ((commandOp i (afterPhases s).regs).1, some (commandOp i (afterPhases s).regs).2) :=
      eventStep_eq_some.mpr ⟨by simp [eventEnabled, hopen], rfl⟩
    have hrun := eventRun_append (eventRun_afterPhases s.params s) (eventRun_singleton hcmd)
    simpa [cycleOps, hr, ha] using hrun
  case inr.inr =>
    have hreply : (afterPhases s).reply = none := by simp [afterPhases]
    simpa [cycleOps, hr, ha, hreply] using eventRun_afterPhases s.params s

/-- Settles O35: by induction over the cycles, each of which is a run of its operations under the same parameters. -/
theorem clockedRunsAreEventLevelRuns : Obligations.ClockedRunsAreEventLevelRuns := by
  intro k
  induction k with
  | zero => intro s t h; cases h; rfl
  | succ k ih =>
    intro s u h
    obtain ⟨t, hs, ht⟩ := runCycles_succ_cases h
    have hrest := ih t u ht
    rw [step_params hs] at hrest
    simpa only [runOps, runReplies, hs] using eventRun_append (step_eventRun hs) hrest

end Sys2Proof.Machine
end

section
/-! PROOFS. One cycle outside reset, side by side: the tick generator (R146, R148) and the trigger FSM (R136, R147). -/

namespace Sys2Proof.Machine

variable {s t : State} {i : Instr}

theorem armsTimer_iff : armsTimer s = true ↔ ∃ v, acceptedInstr s = some (.flashAndTrigger v) := by
  unfold armsTimer
  split <;> simp_all

theorem assertsTrigger_iff :
    assertsTrigger s = true ↔
      ∃ v, acceptedInstr s = some (.trigger v) ∨ acceptedInstr s = some (.flashAndTrigger v) := by
  unfold assertsTrigger
  split <;> simp_all

theorem armsTimer_of_not_accepted (h : acceptedInstr s = none) : armsTimer s = false := by
  rw [armsTimer, h]

theorem ne_flashAndTrigger_of_accepted (ha : acceptedInstr s = some i) (hn : armsTimer s = false) :
    ∀ v, i ≠ .flashAndTrigger v := by
  rintro v rfl
  exact absurd (hn.symm.trans (armsTimer_iff.mpr ⟨v, ha⟩)) Bool.false_ne_true

/-- The whole next state of a cycle that arms the timer; phase 1's work in it is overwritten (R92, R148, D11). -/
theorem step_of_arms (hr : (currentInputs s).rst = false) (ha : armsTimer s = true) :
    step s = .next { s with
      regs := { s.regs with fcnt := s.regs.fdur, flash := true, tarm := true, trig := true }
      pre := 0
      reply := some .empty
      inputs := s.inputs.tail } := by
  obtain ⟨v, hv⟩ := armsTimer_iff.mp ha
  rw [step_of_accepted_eq hr hv]
  simp [commandCounters, restartTickPeriod, commitCommand, commandOp, opFlashAndTrigger]

/-- A cycle that does not arm leaves the timer as phase 1 leaves it: no other command touches it. -/
theorem step_timer_of_not_arms (h : step s = .next t) (hr : (currentInputs s).rst = false)
    (hn : armsTimer s = false) :
    t.pre = (tickPhase (beginCycle s)).pre ∧ t.regs.fcnt = (tickPhase (beginCycle s)).regs.fcnt ∧
      t.regs.tarm = (tickPhase (beginCycle s)).regs.tarm := by
  obtain ⟨hr', -⟩ | ⟨i, -, ha, -, rfl⟩ | ⟨-, -, rfl⟩ := step_cases h
  · exact absurd (hr.symm.trans hr') Bool.false_ne_true
  · have hi : ∀ v, i ≠ .flashAndTrigger v := ne_flashAndTrigger_of_accepted ha hn
    rw [commandCounters_pre _ hi, commandCounters_regs, commitCommand_regs, commandOp_fcnt _ hi, commandOp_tarm _ hi]
    exact ⟨rfl, rfl, rfl⟩
  · simp [afterPhases]

theorem tickDue_eq (ht : s.regs.tarm = true) : tickDue s = decide (s.pre = tickCycles s.params - 1) := by
  rw [tickDue, ht, Bool.true_and, beq_eq_decide]

theorem releaseDue_eq (ht : s.regs.trig = true) : releaseDue s = decide (s.hcnt = holdCycles s.params - 1) := by
  rw [releaseDue, ht, Bool.true_and, beq_eq_decide]

theorem step_timer_of_due (h : step s = .next t) (hr : (currentInputs s).rst = false) (hn : armsTimer s = false)
    (ht : s.regs.tarm = true) (hpre : s.pre = tickCycles s.params - 1) :
    t.pre = 0 ∧ t.regs.fcnt.toNat = s.regs.fcnt.toNat - 1 ∧ t.regs.tarm = decide (2 ≤ s.regs.fcnt.toNat) := by
  have hdue : tickDue (beginCycle s) = true := (tickDue_eq ht).trans (decide_eq_true hpre)
  have htimer := step_timer_of_not_arms h hr hn
  rw [tickPhase_of_due hdue] at htimer
  obtain ⟨hp, hc, ha⟩ := htimer
  exact ⟨hp, by rw [hc]; exact tick_fcnt_toNat s.regs, ha.trans (tick_tarm_of_armed ht)⟩

theorem step_timer_of_counting (h : step s = .next t) (hr : (currentInputs s).rst = false)
    (hn : armsTimer s = false) (ht : s.regs.tarm = true) (hpre : s.pre ≠ tickCycles s.params - 1) :
    t.pre = s.pre + 1 ∧ t.regs.fcnt = s.regs.fcnt ∧ t.regs.tarm = true := by
  have hdue : tickDue (beginCycle s) = false := (tickDue_eq ht).trans (decide_eq_false hpre)
  have htimer := step_timer_of_not_arms h hr hn
  rw [tickPhase_of_counting hdue ht] at htimer
  obtain ⟨hp, hc, ha⟩ := htimer
  exact ⟨hp, hc, ha.trans ht⟩

theorem step_timer_of_disarmed (h : step s = .next t) (hr : (currentInputs s).rst = false)
    (hn : armsTimer s = false) (ht : s.regs.tarm = false) :
    t.pre = s.pre ∧ t.regs.fcnt = s.regs.fcnt ∧ t.regs.tarm = false := by
  have htimer := step_timer_of_not_arms h hr hn
  rw [tickPhase_of_disarmed (s := beginCycle s) ht] at htimer
  obtain ⟨hp, hc, ha⟩ := htimer
  exact ⟨hp, hc, ha.trans ht⟩

/-- Settles O24: one lemma for each of the four cases. -/
theorem tickGeneratorCountsCycles : Obligations.TickGeneratorCountsCycles := by
  refine fun s t h hr => ⟨fun ha => ?arms, step_timer_of_due h hr, step_timer_of_counting h hr,
    step_timer_of_disarmed h hr⟩
  cases (step_of_arms hr ha).symm.trans h
  exact ⟨rfl, rfl, rfl⟩

/-- The tick generator outside reset does one of four things. -/
theorem step_timer_cases (h : step s = .next t) (hr : (currentInputs s).rst = false) :
    (armsTimer s = true ∧ t.pre = 0 ∧ t.regs.fcnt = s.regs.fdur ∧ t.regs.tarm = true) ∨
    (armsTimer s = false ∧ s.regs.tarm = true ∧ s.pre = tickCycles s.params - 1 ∧
      t.pre = 0 ∧ t.regs.fcnt.toNat = s.regs.fcnt.toNat - 1 ∧ t.regs.tarm = decide (2 ≤ s.regs.fcnt.toNat)) ∨
    (armsTimer s = false ∧ s.regs.tarm = true ∧ s.pre ≠ tickCycles s.params - 1 ∧
      t.pre = s.pre + 1 ∧ t.regs.fcnt = s.regs.fcnt ∧ t.regs.tarm = true) ∨
    (armsTimer s = false ∧ s.regs.tarm = false ∧
      t.pre = s.pre ∧ t.regs.fcnt = s.regs.fcnt ∧ t.regs.tarm = false) := by
  obtain ⟨harm, hdue, hcount, hdis⟩ := tickGeneratorCountsCycles s t h hr
  cases ha : armsTimer s with
  | true => exact .inl ⟨rfl, harm ha⟩
  | false =>
    cases ht : s.regs.tarm with
    | true =>
      by_cases hpre : s.pre = tickCycles s.params - 1
      · exact .inr (.inl ⟨rfl, rfl, hpre, hdue ha ht hpre⟩)
      · exact .inr (.inr (.inl ⟨rfl, rfl, hpre, hcount ha ht hpre⟩))
    | false => exact .inr (.inr (.inr ⟨rfl, rfl, hdis ha ht⟩))

/-! The trigger FSM -/

theorem step_trig_of_idle (h : step s = .next t) (hr : (currentInputs s).rst = false) (ht : s.regs.trig = false) :
    t.regs.trig = assertsTrigger s ∧ t.hcnt = s.hcnt := by
  obtain ⟨hr', -⟩ | ⟨i, -, ha, -, rfl⟩ | ⟨-, ha, rfl⟩ := step_cases h
  · exact absurd (hr.symm.trans hr') Bool.false_ne_true
  · refine ⟨?_, by simp⟩
    cases hasserts : assertsTrigger s with
    | true =>
      obtain ⟨v, hv | hv⟩ := assertsTrigger_iff.mp hasserts <;> cases ha.symm.trans hv <;> rfl
    | false =>
      have hi : ∀ v, ¬ (i = .trigger v ∨ i = .flashAndTrigger v) := by
        rintro v (rfl | rfl)
        · exact absurd (hasserts.symm.trans (assertsTrigger_iff.mpr ⟨v, .inl ha⟩)) Bool.false_ne_true
        · exact absurd (hasserts.symm.trans (assertsTrigger_iff.mpr ⟨v, .inr ha⟩)) Bool.false_ne_true
      rw [commandCounters_regs, commitCommand_regs, commandOp_trig _ hi, tickPhase_trig, beginCycle_regs, ht]
  · rw [afterPhases_eq_tickPhase ht, assertsTrigger, ha]
    exact ⟨by simpa using ht, by simp⟩

theorem step_trig_of_releaseDue (h : step s = .next t) (hr : (currentInputs s).rst = false)
    (ht : s.regs.trig = true) (hh : s.hcnt = holdCycles s.params - 1) : t.regs.trig = false ∧ t.hcnt = 0 := by
  cases (step_of_releaseDue hr ((releaseDue_eq ht).trans (decide_eq_true hh))).symm.trans h
  exact ⟨rfl, rfl⟩

theorem step_trig_of_holding (h : step s = .next t) (hr : (currentInputs s).rst = false)
    (ht : s.regs.trig = true) (hh : s.hcnt ≠ holdCycles s.params - 1) :
    t.regs.trig = true ∧ t.hcnt = s.hcnt + 1 := by
  have hdue : releaseDue (tickPhase (beginCycle s)) = false :=
    releaseDue_tickPhase.trans ((releaseDue_eq ht).trans (decide_eq_false hh))
  cases (step_of_not_accepted hr (accepted_of_trig ht).2).symm.trans h
  rw [afterPhases, releasePhase_of_holding hdue (by simpa using ht)]
  exact ⟨by simpa using ht, by simp⟩

/-- Settles O25: one lemma for each of the three cases. -/
theorem triggerFsmTransitions : Obligations.TriggerFsmTransitions := fun _ _ h hr =>
  ⟨step_trig_of_idle h hr, step_trig_of_releaseDue h hr, step_trig_of_holding h hr⟩

/-- The trigger FSM outside reset does one of three things. -/
theorem step_trig_cases (h : step s = .next t) (hr : (currentInputs s).rst = false) :
    (s.regs.trig = false ∧ t.regs.trig = assertsTrigger s ∧ t.hcnt = s.hcnt) ∨
    (s.regs.trig = true ∧ s.hcnt = holdCycles s.params - 1 ∧ t.regs.trig = false ∧ t.hcnt = 0) ∨
    (s.regs.trig = true ∧ s.hcnt ≠ holdCycles s.params - 1 ∧ t.regs.trig = true ∧ t.hcnt = s.hcnt + 1) := by
  cases ht : s.regs.trig with
  | false => exact .inl ⟨rfl, step_trig_of_idle h hr ht⟩
  | true =>
    by_cases hh : s.hcnt = holdCycles s.params - 1
    · exact .inr (.inl ⟨rfl, hh, step_trig_of_releaseDue h hr ht hh⟩)
    · exact .inr (.inr ⟨rfl, hh, step_trig_of_holding h hr ht hh⟩)

end Sys2Proof.Machine
end

section
/-! PROOFS. Invariants of the clocked level (R34, R35, R101, R155), kept by every step: the two of the registers come
from the event level, those of the counters from the tick generator and the trigger FSM. -/

namespace Sys2Proof.Machine

variable {s t : State}

theorem step_keeps_flash (h : step s = .next t) (hI : FlashIsLampOrArmed s.regs) : FlashIsLampOrArmed t.regs :=
  eventRun_keeps_flash (step_eventRun h) hI

theorem step_keeps_count (h : step s = .next t) (hI : CountOnlyWhileArmed s.regs) : CountOnlyWhileArmed t.regs :=
  eventRun_keeps_count (step_eventRun h) hI

/-- PRE stays below the tick period: the cycle at its last value is the due TICK's (R37, R155). -/
theorem step_pre_lt (h : step s = .next t) (hr : (currentInputs s).rst = false)
    (hI : s.pre < tickCycles s.params) : t.pre < tickCycles t.params := by
  rw [step_params h]
  obtain ⟨-, hp, -⟩ | ⟨-, -, -, hp, -⟩ | ⟨-, -, hne, hp, -⟩ | ⟨-, -, hp, -⟩ := step_timer_cases h hr <;>
    rw [hp] <;> omega

/-- HCNT stays below the hold: the cycle at its last value is the due RELEASE's (R38, R155). -/
theorem step_hcnt_lt (h : step s = .next t) (hr : (currentInputs s).rst = false)
    (hI : s.hcnt < holdCycles s.params) : t.hcnt < holdCycles t.params := by
  rw [step_params h]
  obtain ⟨-, -, hc⟩ | ⟨-, -, -, hc⟩ | ⟨-, hne, -, hc⟩ := step_trig_cases h hr <;> rw [hc] <;> omega

theorem step_pre_zero (h : step s = .next t) (hr : (currentInputs s).rst = false)
    (hI : s.regs.tarm = false → s.pre = 0) (ht : t.regs.tarm = false) : t.pre = 0 := by
  obtain ⟨-, hp, -⟩ | ⟨-, -, -, hp, -⟩ | ⟨-, -, -, -, -, ha⟩ | ⟨-, hs, hp, -⟩ := step_timer_cases h hr
  · exact hp
  · exact hp
  · exact absurd (ht.symm.trans ha) Bool.false_ne_true
  · exact hp.trans (hI hs)

theorem step_hcnt_zero (h : step s = .next t) (hr : (currentInputs s).rst = false)
    (hI : s.regs.trig = false → s.hcnt = 0) (ht : t.regs.trig = false) : t.hcnt = 0 := by
  obtain ⟨hs, -, hc⟩ | ⟨-, -, -, hc⟩ | ⟨-, -, ha, -⟩ := step_trig_cases h hr
  · exact hc.trans (hI hs)
  · exact hc
  · exact absurd (ht.symm.trans ha) Bool.false_ne_true

theorem Inv.step (hI : Inv s) (h : step s = .next t) : Inv t := by
  cases hr : (currentInputs s).rst with
  | true =>
    cases (step_of_rst hr).symm.trans h
    exact inv_of_reset hI.params rfl rfl rfl
  | false =>
    exact
      { params := step_params h ▸ hI.params
        flash := step_keeps_flash h hI.flash
        count := step_keeps_count h hI.count
        preLt := step_pre_lt h hr hI.preLt
        hcntLt := step_hcnt_lt h hr hI.hcntLt
        preZero := step_pre_zero h hr hI.preZero
        hcntZero := step_hcnt_zero h hr hI.hcntZero }

/-- Settles O32: RESET leaves a state that meets the invariants, and any other cycle keeps each of them. -/
theorem everyStepKeepsTheInvariants : Obligations.EveryStepKeepsTheInvariants :=
  fun _ _ hI h => hI.step h

/-- Where an armed timer's count of 0 stands inside the hold, no request is accepted in it (R101). -/
theorem ZeroCountInsideHold.not_accepted (hZ : ZeroCountInsideHold s) (ha : s.regs.tarm = true)
    (hc : s.regs.fcnt = 0) : acceptedRequest s = none :=
  (accepted_of_trig (hZ ha hc).1).1

/-- An armed count of 0 arises by an arm, which starts the hold and the tick period together; from there both count
until the TICK, which is the expiry and comes no later than the RELEASE (R101). -/
theorem ZeroCountInsideHold.step (hI : Inv s) (hle : tickCycles s.params ≤ holdCycles s.params)
    (hZ : ZeroCountInsideHold s) (h : step s = .next t) : ZeroCountInsideHold t := by
  cases hr : (currentInputs s).rst with
  | true =>
    cases (step_of_rst hr).symm.trans h
    exact zeroCountInsideHold_of_disarmed rfl
  | false =>
    intro hta htc
    obtain ⟨harm, -⟩ | ⟨-, -, -, -, hc, ha⟩ | ⟨-, hsa, hne, hp, hc, -⟩ | ⟨-, -, -, -, ha⟩ := step_timer_cases h hr
    case inl =>
      obtain ⟨v, hv⟩ := armsTimer_iff.mp harm
      cases (step_of_arms hr harm).symm.trans h
      exact ⟨rfl, hI.hcntZero (trig_of_accepted hv)⟩
    case inr.inl =>
      have h2 : 2 ≤ s.regs.fcnt.toNat := of_decide_eq_true (ha.symm.trans hta)
      have h0 : t.regs.fcnt.toNat = 0 := by rw [htc]; rfl
      omega
    case inr.inr.inl =>
      obtain ⟨htrig, heq⟩ := hZ hsa (hc.symm.trans htc)
      have hpre := hI.preLt
      obtain ⟨ht, hh⟩ := step_trig_of_holding h hr htrig (by omega)
      exact ⟨ht, by rw [hh, hp, heq]⟩
    case inr.inr.inr => exact absurd (ha.symm.trans hta) Bool.false_ne_true

/-- Settles O33: the invariant is kept by every step, and at a closed port nothing is accepted. -/
theorem zeroCountStaysInsideTheHold : Obligations.ZeroCountStaysInsideTheHold :=
  fun _ _ hI hle hZ h => ⟨hZ.step hI hle h, hZ.not_accepted⟩

end Sys2Proof.Machine
end

section
/-! PROOFS. One cycle at the ports: the request taken, the request that waits, the reply driven, and what the cycle may
write (R28, R31, R32, R40, R148 to R157). -/

namespace Sys2Proof.Machine

variable {s t : State} {i : Instr}

/-! The accepted request -/

theorem acceptedInstr_eq_none_iff : acceptedInstr s = none ↔ acceptedRequest s = none :=
  Option.map_eq_none_iff

theorem acceptedInstr_isSome : (acceptedInstr s).isSome = (acceptedRequest s).isSome :=
  Option.isSome_map

/-- A request presented at an open port outside reset runs on the state phase 1 leaves (R148, R150). -/
theorem step_of_presented {cmd : Byte} {v : Word} (hin : currentInputs s = ⟨false, true, cmd, v⟩)
    (ht : s.regs.trig = false) :
    step s = exec (decode s.params.cmdCode ⟨cmd, v⟩) (tickPhase (beginCycle s)) := by
  have hr : (currentInputs s).rst = false := by rw [hin]
  rw [step_of_accepted hr (accepted_of_presented hin ht).2, afterPhases_eq_tickPhase ht]

/-- Settles O6: a sample with a request, and a word put on the port, present that request. -/
theorem stepRunsTheDecodedRequest : Obligations.StepRunsTheDecodedRequest := by
  refine ⟨fun s cmd value rest hin ht => ?sample, fun s w ht => ?word⟩
  case sample =>
    rw [step_of_presented (by rw [currentInputs, hin, List.headD_cons]) ht, beginCycle, hin]
    rfl
  case word =>
    have hw : BitVec.ofNat 24 (w.toNat % 2 ^ 24) = w := by
      rw [Nat.mod_eq_of_lt w.isLt, BitVec.ofNat_toNat, BitVec.setWidth_eq]
    rw [State.withFetchWord, hw]
    exact step_of_presented (s := presentWord s w) rfl ht

/-- At a closed port the cycle is its first two phases, whatever is presented (R31, R148). -/
theorem step_of_closed (hr : (currentInputs s).rst = false) (ht : s.regs.trig = true) :
    step s = .next (afterPhases s) :=
  step_of_not_accepted hr (accepted_of_trig ht).2

/-- The first two phases do not read the input sample of their cycle. -/
theorem afterPhases_inputs_cons (s : State) (p q : PortIn) (rest : List PortIn) :
    afterPhases { s with inputs := p :: rest } = afterPhases { s with inputs := q :: rest } := rfl

/-- Settles O27: a cycle at a closed port is its phases alone, which do not read the request and drive no reply. -/
theorem requestAtAClosedPortHasNoEffect : Obligations.RequestAtAClosedPortHasNoEffect := by
  intro s valid cmd value rest ht
  have hcycle (p : PortIn) (hp : p.rst = false) :
      step { s with inputs := p :: rest } = .next (afterPhases { s with inputs := p :: rest }) :=
    step_of_closed hp ht
  refine ⟨?_, _, hcycle _ rfl, by simp [afterPhases]⟩
  rw [hcycle _ rfl, hcycle idlePorts rfl, afterPhases_inputs_cons]

/-! The host that keeps its request presented (R79, R182) -/

/-- A line's canonical request stands for an instruction that does the same, as only an ignored value differs (R79). -/
theorem exists_canonical_instr (c : CmdCode) (i : Instr) :
    ∃ j, canonicalRequest c i = encode c j ∧ j.wf c = i.wf c ∧ ∀ s, exec j s = exec i s := by
  cases i with
  | trigger _ => exact ⟨.trigger 0, rfl, rfl, fun _ => rfl⟩
  | flashAndTrigger _ => exact ⟨.flashAndTrigger 0, rfl, rfl, fun _ => rfl⟩
  | lightOn _ => exact ⟨.lightOn 0, rfl, rfl, fun _ => rfl⟩
  | lightOff _ => exact ⟨.lightOff 0, rfl, rfl, fun _ => rfl⟩
  | lightState _ => exact ⟨.lightState 0, rfl, rfl, fun _ => rfl⟩
  | flashTimeGet _ => exact ⟨.flashTimeGet 0, rfl, rfl, fun _ => rfl⟩
  | flashTimeSet _ => exact ⟨_, rfl, rfl, fun _ => rfl⟩
  | unknown _ _ => exact ⟨_, rfl, rfl, fun _ => rfl⟩

theorem exec_decode_canonicalRequest {c : CmdCode} (hc : c.wf = true) (hi : i.wf c = true) (s : State) :
    exec (decode c (canonicalRequest c i)) s = exec i s := by
  obtain ⟨j, hreq, hwf, hexec⟩ := exists_canonical_instr c i
  rw [hreq, decode_encode hc (hwf.trans hi), hexec]

theorem remaining_of_not_accepted {prog : List Line} (h : acceptedRequest s = none) : remaining prog s = prog := by
  simp [remaining, h]

theorem remaining_of_accepted {prog : List Line} {q : Request} (h : acceptedRequest s = some q) :
    remaining prog s = prog.tail := by
  simp [remaining, h]

theorem acceptedRequest_of_not_presented (h : (currentInputs s).reqValid = false) : acceptedRequest s = none := by
  simp [acceptedRequest, h]

section Driven

variable {resetAt : List Nat} {n : Nat} {l : Line} {prog : List Line}

theorem driven_rst (s : State) (h : n ∈ resetAt) : (currentInputs (driven resetAt n prog s)).rst = true := by
  change (hostPorts s.params.cmdCode resetAt n prog).rst = true
  cases prog with
  | nil => simpa [hostPorts] using h
  | cons l prog => rw [hostPorts]; split <;> simpa using h

theorem driven_before (s : State) (h : n < l.start) :
    (currentInputs (driven resetAt n (l :: prog) s)).reqValid = false := by
  change (hostPorts s.params.cmdCode resetAt n (l :: prog)).reqValid = false
  rw [hostPorts, if_neg (Nat.not_le.mpr h)]
  rfl

theorem driven_presenting (s : State) (hn : n ∉ resetAt) (h : l.start ≤ n) :
    currentInputs (driven resetAt n (l :: prog) s) = presenting (canonicalRequest s.params.cmdCode l.instr) := by
  change hostPorts s.params.cmdCode resetAt n (l :: prog) = _
  rw [hostPorts, if_pos h]
  simp [presenting, hn]

end Driven

/-- Settles O44: nothing is accepted at a closed port, in a reset cycle or before the line's cycle; otherwise the line's
canonical request is, and it does what the line's command does. -/
theorem hostPresentsARequestUntilAccepted : Obligations.HostPresentsARequestUntilAccepted := by
  refine fun resetAt n l prog s hc hi => ⟨fun hwait => ?waits, fun ht hn hstart => ?accepted⟩
  case waits =>
    refine remaining_of_not_accepted ?_
    obtain ht | hn | hn := hwait
    · exact (accepted_of_trig (s := driven resetAt n (l :: prog) s) ht).1
    · exact (accepted_of_rst (driven_rst s hn)).1
    · exact acceptedRequest_of_not_presented (driven_before s hn)
  case accepted =>
    have hin := driven_presenting (prog := prog) s hn hstart
    refine ⟨remaining_of_accepted (accepted_of_presented hin ht).1, ?_⟩
    exact (step_of_presented hin ht).trans (exec_decode_canonicalRequest hc hi _)

/-! An expiring TICK and a command in one cycle -/

/-- The command of a cycle whose TICK is the expiry runs on the disarmed timer and the lamp's line (R157, D11). -/
theorem step_of_accepted_at_expiry (hr : (currentInputs s).rst = false) (ha : acceptedInstr s = some i)
    (hdue : tickDue s = true) (hc : s.regs.fcnt.toNat ≤ 1) :
    step s = .next (commandCounters i (commitCommand (commandOp i)
      { beginCycle s with
        regs := { s.regs with fcnt := 0, flash := s.regs.lamp, tarm := false }
        pre := 0 })) := by
  have hphase := tickPhase_of_due (s := beginCycle s) hdue
  rw [beginCycle_regs, tick_of_expiry hc] at hphase
  rw [step_of_accepted_eq hr ha, hphase]

/-- Settles O28: each command computed on the state the expiry leaves. -/
theorem expiryAndCommandInOneCycle : Obligations.ExpiryAndCommandInOneCycle := by
  refine fun s i hr ha hdue hc =>
    ⟨_, step_of_accepted_at_expiry hr ha hdue hc, ?rearm, ?lightOn, ?lightOff, ?lightState⟩
  case rearm => rintro ⟨v, rfl⟩; exact ⟨rfl, rfl⟩
  case lightOn => rintro ⟨v, rfl⟩; rfl
  case lightOff => rintro ⟨v, rfl⟩; rfl
  case lightState => rintro ⟨v, rfl⟩; exact ⟨rfl, rfl⟩

/-! The reply port -/

/-- A reply is driven exactly by an accepted request (R12, R151). -/
theorem step_reply_isSome (h : step s = .next t) : t.reply.isSome = (acceptedRequest s).isSome := by
  rw [← acceptedInstr_isSome]
  obtain ⟨hr, rfl⟩ | ⟨i, -, ha, -, rfl⟩ | ⟨-, ha, rfl⟩ := step_cases h
  · rw [(accepted_of_rst hr).2]; rfl
  · rw [ha, commandCounters_reply]; rfl
  · rw [ha]; simp [afterPhases]

/-- Two bytes packed in a word, the first one high (D5). -/
theorem append_bytes_toNat (b0 b1 : Byte) : (b0 ++ b1 : Word).toNat = 256 * b0.toNat + b1.toNat := by
  rw [BitVec.toNat_append, ← Nat.shiftLeft_add_eq_or_of_lt b1.isLt, Nat.shiftLeft_eq, Nat.mul_comm]

/-- Settles O29: the validity by the acceptance, the packing by the reply driven. -/
theorem replyPortPacking : Obligations.ReplyPortPacking := by
  intro s t h
  refine ⟨?valid, fun hn => ?none, fun he => ?empty, fun b0 h1 => ?one, fun b0 b1 h2 => ?two⟩
  case valid => rw [rspValid, step_reply_isSome h, Option.isSome_iff_exists]
  case none => simp [rspLen, rspData, hn]
  case empty => simp [rspLen, rspData, he]
  case one =>
    rw [rspLen, rspData, h1]
    exact ⟨rfl, append_bytes_toNat b0 0⟩
  case two =>
    rw [rspLen, rspData, h2]
    exact ⟨rfl, append_bytes_toNat b0 b1⟩

/-! Who writes LAMP, FDUR and FLASH -/

theorem step_lamp_of_not_accepted (h : step s = .next t) (hr : (currentInputs s).rst = false)
    (ha : acceptedInstr s = none) : t.regs.lamp = s.regs.lamp := by
  cases (step_of_not_accepted hr ha).symm.trans h
  simp [afterPhases]

theorem step_lamp_writers (h : step s = .next t) (hr : (currentInputs s).rst = false)
    (hne : t.regs.lamp ≠ s.regs.lamp) :
    (∃ v, acceptedInstr s = some (.lightOn v) ∧ t.regs.lamp = true) ∨
    (∃ v, acceptedInstr s = some (.lightOff v) ∧ t.regs.lamp = false) := by
  cases ha : acceptedInstr s with
  | none => exact absurd (step_lamp_of_not_accepted h hr ha) hne
  | some i =>
    cases (step_of_accepted_eq hr ha).symm.trans h
    have hi : ∃ v, i = .lightOn v ∨ i = .lightOff v := by
      by_contra hno
      refine hne ?_
      rw [commandCounters_regs, commitCommand_regs, commandOp_lamp _ (not_exists.mp hno), tickPhase_lamp,
        beginCycle_regs]
    obtain ⟨v, rfl | rfl⟩ := hi
    · exact .inl ⟨v, rfl, rfl⟩
    · exact .inr ⟨v, rfl, rfl⟩

theorem setsDuration_iff : setsDuration s = true ↔ ∃ v, acceptedInstr s = some (.flashTimeSet v) := by
  unfold setsDuration
  split <;> simp_all

theorem step_fdur_writers (h : step s = .next t) (hr : (currentInputs s).rst = false)
    (hne : t.regs.fdur ≠ s.regs.fdur) : ∃ v, acceptedInstr s = some (.flashTimeSet v) ∧ t.regs.fdur = v := by
  have hset : setsDuration s = true := by
    by_contra hno
    exact hne (step_keeps_fdur hr (Bool.eq_false_iff.mpr hno) h)
  obtain ⟨v, hv⟩ := setsDuration_iff.mp hset
  exact ⟨v, hv, fdur_of_flashTimeSet_accepted hr hv h⟩

/-- An armed timer that a cycle disarms is at its due TICK with a count of at most 1 (R24, R125). -/
theorem step_disarms (h : step s = .next t) (hr : (currentInputs s).rst = false) (ha : s.regs.tarm = true)
    (ht : t.regs.tarm = false) : tickDue s = true ∧ s.regs.fcnt.toNat ≤ 1 := by
  obtain ⟨-, -, -, hon⟩ | ⟨-, -, hpre, -, -, hon⟩ | ⟨-, -, -, -, -, hon⟩ | ⟨-, hoff, -⟩ := step_timer_cases h hr
  · exact absurd (ht.symm.trans hon) Bool.false_ne_true
  · have hlt : ¬ 2 ≤ s.regs.fcnt.toNat := of_decide_eq_false (hon.symm.trans ht)
    exact ⟨(tickDue_eq ha).trans (decide_eq_true hpre), by omega⟩
  · exact absurd (ht.symm.trans hon) Bool.false_ne_true
  · exact absurd (hoff.symm.trans ha) Bool.false_ne_true

/-- A disarmed timer is armed in a cycle only by FLASH_AND_TRIGGER (R24, R92). -/
theorem step_arms (h : step s = .next t) (hr : (currentInputs s).rst = false) (ha : s.regs.tarm = false)
    (ht : t.regs.tarm = true) : ∃ v, acceptedInstr s = some (.flashAndTrigger v) := by
  refine armsTimer_iff.mp ?_
  by_contra hno
  exact absurd ((step_timer_of_disarmed h hr (Bool.eq_false_iff.mpr hno) ha).2.2.symm.trans ht) Bool.false_ne_true

theorem FlashIsLampOrArmed.flash_eq_false_iff {r : Regs} (h : FlashIsLampOrArmed r) :
    r.flash = false ↔ r.lamp = false ∧ r.tarm = false := by
  rw [h, Bool.or_eq_false_iff]

/-- Settles O26: LAMP and FDUR by their writers; the line is LAMP or TARM before and after the cycle (R34), so it rises
and falls only with one of these. -/
theorem registersChangeOnlyByTheirWriters : Obligations.RegistersChangeOnlyByTheirWriters := by
  intro s t h hr hflash
  have hflash' : FlashIsLampOrArmed t.regs := step_keeps_flash h hflash
  refine ⟨step_lamp_writers h hr, step_fdur_writers h hr, fun hs ht => ?rises, fun hs ht => ?falls⟩
  case rises =>
    obtain ⟨hlamp, htarm⟩ := hflash.flash_eq_false_iff.mp hs
    obtain hon | harmed := hflash'.flash_iff.mp ht
    · obtain ⟨v, hv, -⟩ | ⟨v, -, hoff⟩ := step_lamp_writers h hr (by simp [hlamp, hon])
      · exact ⟨v, .inr hv⟩
      · exact absurd (hoff.symm.trans hon) Bool.false_ne_true
    · obtain ⟨v, hv⟩ := step_arms h hr htarm harmed
      exact ⟨v, .inl hv⟩
  case falls =>
    obtain ⟨hlamp, htarm⟩ := hflash'.flash_eq_false_iff.mp ht
    refine ⟨fun ha => step_disarms h hr ha htarm, fun hl => ?_⟩
    obtain ⟨v, -, hon⟩ | ⟨v, hv, -⟩ := step_lamp_writers h hr (by simp [hlamp, hl])
    · exact absurd (hlamp.symm.trans hon) Bool.false_ne_true
    · exact ⟨v, hv⟩

end Sys2Proof.Machine
end

section
/-! PROOFS. The two pulses in time (R138, R154): what is left of each goes down by one in every cycle, so a run of as
many cycles ends it. -/

namespace Sys2Proof.Machine

variable {s t u : State} {k n : Nat} {P : State → Prop}

/-! Runs, with the number of cycles so far -/

/-- The induction over cycles where what holds depends on how many there were. -/
theorem runCycles_reaches {I : Nat → State → Prop} (hP : DuringCycles n s P) (hI : I 0 s)
    (hstep : ∀ k w w', k < n → P w → I k w → step w = .next w' → I (k + 1) w') :
    ∀ k, k ≤ n → ∃ u, runCycles k s = .next u ∧ I k u := by
  intro k
  induction k with
  | zero => exact fun _ => ⟨s, rfl, hI⟩
  | succ k ih =>
    intro hk
    obtain ⟨u, hu, hIu⟩ := ih (by omega)
    obtain ⟨w, hw⟩ := exists_step_eq_next u
    exact ⟨w, runCycles_snoc hu hw, hstep k u w hk (hP k hk u hu) hIu hw⟩

theorem runCycles_params (h : runCycles k s = .next u) : u.params = s.params :=
  runCycles_keeps (P := fun _ => True) (I := fun w => w.params = s.params)
    (fun _ _ _ hI hs => (step_params hs).trans hI) rfl (fun _ _ _ _ => trivial) h

/-! What is left of each pulse, in cycles -/

/-- The cycles up to and including the one whose TICK is the expiry; none while disarmed. -/
def timerLeft (s : State) : Nat :=
  if s.regs.tarm then max s.regs.fcnt.toNat 1 * tickCycles s.params - s.pre else 0

/-- The cycles up to and including the RELEASE's; none while TRIG is 0. -/
def holdLeft (s : State) : Nat := if s.regs.trig then holdCycles s.params - s.hcnt else 0

theorem timerLeft_of_armed (h : s.regs.tarm = true) :
    timerLeft s = max s.regs.fcnt.toNat 1 * tickCycles s.params - s.pre := if_pos h

theorem timerLeft_of_disarmed (h : s.regs.tarm = false) : timerLeft s = 0 := by simp [timerLeft, h]

theorem holdLeft_of_trig (h : s.regs.trig = true) : holdLeft s = holdCycles s.params - s.hcnt := if_pos h

theorem holdLeft_of_idle (h : s.regs.trig = false) : holdLeft s = 0 := by simp [holdLeft, h]

theorem timerLeft_le (s : State) : timerLeft s ≤ max s.regs.fcnt.toNat 1 * tickCycles s.params := by
  unfold timerLeft
  split <;> omega

theorem holdLeft_le (s : State) : holdLeft s ≤ holdCycles s.params := by
  unfold holdLeft
  split <;> omega

/-- A cycle that does not arm takes one from what is left of the timed pulse. -/
theorem step_timerLeft (h : step s = .next t) (hr : (currentInputs s).rst = false) (hn : armsTimer s = false)
    (hpre : s.pre < tickCycles s.params) : timerLeft t = timerLeft s - 1 := by
  obtain ⟨ha, -⟩ | ⟨-, ha, hlast, hp, hc, ht⟩ | ⟨-, ha, -, hp, hc, ht⟩ | ⟨-, ha, -, -, ht⟩ := step_timer_cases h hr
  case inl => exact absurd (hn.symm.trans ha) Bool.false_ne_true
  case inr.inl =>
    rw [timerLeft_of_armed ha]
    obtain h1 | h2 := Nat.lt_or_ge s.regs.fcnt.toNat 2
    · rw [timerLeft_of_disarmed (ht.trans (decide_eq_false (by omega))), max_eq_right (by omega)]
      omega
    · rw [timerLeft_of_armed (ht.trans (decide_eq_true h2)), step_params h, hp, hc, max_eq_left (by omega),
        max_eq_left (by omega), Nat.sub_one_mul]
      omega
  case inr.inr.inl =>
    rw [timerLeft_of_armed ha, timerLeft_of_armed ht, step_params h, hp, hc]
    omega
  case inr.inr.inr => rw [timerLeft_of_disarmed ha, timerLeft_of_disarmed ht]

/-- A cycle that does not assert the trigger line takes one from what is left of the hold. -/
theorem step_holdLeft (h : step s = .next t) (hr : (currentInputs s).rst = false) (hn : assertsTrigger s = false) :
    holdLeft t = holdLeft s - 1 := by
  obtain ⟨ha, ht, -⟩ | ⟨ha, hlast, ht, -⟩ | ⟨ha, -, ht, hc⟩ := step_trig_cases h hr
  · rw [holdLeft_of_idle ha, holdLeft_of_idle (ht.trans hn)]
  · rw [holdLeft_of_trig ha, holdLeft_of_idle ht]
    omega
  · rw [holdLeft_of_trig ha, holdLeft_of_trig ht, step_params h, hc]
    omega

/-! Each pulse with the invariants of its counter -/

/-- The timed pulse ends in `n` cycles. -/
structure TimerEndsIn (n : Nat) (s : State) : Prop where
  preLt : s.pre < tickCycles s.params
  flash : FlashIsLampOrArmed s.regs
  count : CountOnlyWhileArmed s.regs
  left  : timerLeft s = n

/-- The trigger hold ends in `n` cycles. -/
structure HoldEndsIn (n : Nat) (s : State) : Prop where
  hcntLt   : s.hcnt < holdCycles s.params
  hcntZero : s.regs.trig = false → s.hcnt = 0
  left     : holdLeft s = n

theorem TimerEndsIn.step (hT : TimerEndsIn n s) (h : step s = .next t) (hr : (currentInputs s).rst = false)
    (hn : armsTimer s = false) : TimerEndsIn (n - 1) t where
  preLt := step_pre_lt h hr hT.preLt
  flash := step_keeps_flash h hT.flash
  count := step_keeps_count h hT.count
  left  := by rw [step_timerLeft h hr hn hT.preLt, hT.left]

theorem HoldEndsIn.step (hH : HoldEndsIn n s) (h : step s = .next t) (hr : (currentInputs s).rst = false)
    (hn : assertsTrigger s = false) : HoldEndsIn (n - 1) t where
  hcntLt   := step_hcnt_lt h hr hH.hcntLt
  hcntZero := step_hcnt_zero h hr hH.hcntZero
  left     := by rw [step_holdLeft h hr hn, hH.left]

theorem TimerEndsIn.armed (hT : TimerEndsIn n s) (hn : 0 < n) : s.regs.tarm = true ∧ s.regs.flash = true := by
  have ha : s.regs.tarm = true := by
    by_contra hno
    have hleft := timerLeft_of_disarmed (Bool.eq_false_iff.mpr hno)
    rw [hT.left] at hleft
    omega
  exact ⟨ha, hT.flash.flash_iff.mpr (.inr ha)⟩

/-- An armed timer has a cycle left, so with none left it is disarmed, its count is 0 and the line is the lamp's. -/
theorem TimerEndsIn.disarmed (hT : TimerEndsIn 0 s) :
    s.regs.tarm = false ∧ s.regs.fcnt = 0 ∧ s.regs.flash = s.regs.lamp := by
  have ha : s.regs.tarm = false := by
    by_contra hno
    have hleft := timerLeft_of_armed (Bool.eq_true_of_not_eq_false hno)
    have hperiod : 1 * tickCycles s.params ≤ max s.regs.fcnt.toNat 1 * tickCycles s.params :=
      Nat.mul_le_mul_right _ (le_max_right _ _)
    have hpre := hT.preLt
    rw [hT.left] at hleft
    omega
  refine ⟨ha, ?_, ?_⟩
  · by_contra hne
    exact absurd (ha.symm.trans (hT.count hne)) Bool.false_ne_true
  · rw [hT.flash, ha, Bool.or_false]

theorem HoldEndsIn.held (hH : HoldEndsIn n s) (hn : 0 < n) : s.regs.trig = true := by
  by_contra hno
  have hleft := holdLeft_of_idle (Bool.eq_false_iff.mpr hno)
  rw [hH.left] at hleft
  omega

theorem HoldEndsIn.released (hH : HoldEndsIn 0 s) : s.regs.trig = false ∧ s.hcnt = 0 := by
  have ht : s.regs.trig = false := by
    by_contra hno
    have hleft := holdLeft_of_trig (Bool.eq_true_of_not_eq_false hno)
    have hlt := hH.hcntLt
    rw [hH.left] at hleft
    omega
  exact ⟨ht, hH.hcntZero ht⟩

/-! Where the pulses begin -/

theorem timerEndsIn_of_arms (h : Machine.step s = .next t) (hp : s.params.wf) (hr : (currentInputs s).rst = false)
    (ha : armsTimer s = true) : TimerEndsIn (max s.regs.fdur.toNat 1 * tickCycles s.params) t := by
  cases (step_of_arms hr ha).symm.trans h
  exact
    { preLt := tickCycles_pos hp
      flash := (Bool.or_true _).symm
      count := fun _ => rfl
      left := timerLeft_of_armed rfl }

theorem assertsTrigger_of_armsTimer (h : armsTimer s = true) : assertsTrigger s = true := by
  obtain ⟨v, hv⟩ := armsTimer_iff.mp h
  exact assertsTrigger_iff.mpr ⟨v, .inr hv⟩

theorem trig_of_assertsTrigger (h : assertsTrigger s = true) : s.regs.trig = false := by
  obtain ⟨v, hv | hv⟩ := assertsTrigger_iff.mp h
  · exact trig_of_accepted hv
  · exact trig_of_accepted hv

theorem assertsTrigger_of_not_accepted (h : acceptedInstr s = none) : assertsTrigger s = false := by
  rw [assertsTrigger, h]

theorem holdEndsIn_of_asserts (h : Machine.step s = .next t) (hp : s.params.wf) (hh : s.hcnt = 0)
    (hr : (currentInputs s).rst = false) (ha : assertsTrigger s = true) : HoldEndsIn (holdCycles s.params) t := by
  obtain ⟨htrig, hhcnt⟩ := step_trig_of_idle h hr (trig_of_assertsTrigger ha)
  have hzero : t.hcnt = 0 := hhcnt.trans hh
  have hparams := step_params h
  exact
    { hcntLt := by rw [hzero, hparams]; exact holdCycles_pos hp
      hcntZero := fun _ => hzero
      left := by rw [holdLeft_of_trig (htrig.trans ha), hzero, hparams, Nat.sub_zero] }

/-! The trigger pulse (R138) -/

/-- While a hold runs the port is closed, so nothing can disturb it but a reset. -/
theorem HoldEndsIn.run (hH : HoldEndsIn n t) (hP : DuringCycles n t fun u => (currentInputs u).rst = false) :
    ∀ k, k ≤ n → ∃ u, runCycles k t = .next u ∧ HoldEndsIn (n - k) u := by
  refine runCycles_reaches (I := fun k u => HoldEndsIn (n - k) u) hP hH fun k w w' hk hr hw hs => ?_
  have hclosed : assertsTrigger w = false :=
    assertsTrigger_of_not_accepted (accepted_of_trig (hw.held (by omega))).2
  exact hw.step hs hr hclosed

/-- Settles O39: the accepted command starts a hold of HOLD_CYCLES cycles, and each state of its run is asserted while
cycles are left and released when none is. -/
theorem triggerPulseLastsHoldCycles : Obligations.TriggerPulseLastsHoldCycles := by
  intro s t hp hh hr ha h hP
  have hrun := (holdEndsIn_of_asserts h hp hh hr ha).run hP
  refine ⟨fun k hk => ?held, ?released⟩
  case held =>
    obtain ⟨u, hu, hH⟩ := hrun k hk.le
    have ht : u.regs.trig = true := hH.held (by omega)
    exact ⟨u, hu, ht, by simp [reqReady, ht], (accepted_of_trig ht).1⟩
  case released =>
    obtain ⟨u, hu, hH⟩ := hrun _ le_rfl
    rw [Nat.sub_self] at hH
    exact ⟨u, hu, hH.released⟩

/-! The timed flash pulse (R154) -/

/-- While the timer armed with a count of `d` runs, FCNT and PRE together say how many cycles it has run. -/
def CountAfter (d k : Nat) (s : State) : Prop :=
  s.regs.tarm = true → s.regs.fcnt.toNat * tickCycles s.params + k = d * tickCycles s.params + s.pre

theorem CountAfter.step {d : Nat} (hC : CountAfter d k s) (hpre : s.pre < tickCycles s.params)
    (h : step s = .next t) (hr : (currentInputs s).rst = false) (hn : armsTimer s = false) :
    CountAfter d (k + 1) t := by
  intro hta
  rw [step_params h]
  obtain ⟨ha, -⟩ | ⟨-, ha, hlast, hp, hc, ht⟩ | ⟨-, ha, -, hp, hc, -⟩ | ⟨-, -, -, -, ht⟩ := step_timer_cases h hr
  case inl => exact absurd (hn.symm.trans ha) Bool.false_ne_true
  case inr.inl =>
    have h2 : 2 ≤ s.regs.fcnt.toNat := of_decide_eq_true (ht.symm.trans hta)
    have hperiod : 2 * tickCycles s.params ≤ s.regs.fcnt.toNat * tickCycles s.params := Nat.mul_le_mul_right _ h2
    have hcount := hC ha
    rw [hp, hc, Nat.sub_one_mul]
    omega
  case inr.inr.inl =>
    have hcount := hC ha
    rw [hp, hc]
    omega
  case inr.inr.inr => exact absurd (ht.symm.trans hta) Bool.false_ne_true

/-- So the count has gone down once per tick period. -/
theorem CountAfter.fcnt {d : Nat} (hC : CountAfter d k s) (hpre : s.pre < tickCycles s.params)
    (ha : s.regs.tarm = true) : s.regs.fcnt.toNat = d - k / tickCycles s.params := by
  have hcount := hC ha
  have hle : s.regs.fcnt.toNat ≤ d := by
    by_contra hlt
    have hmore : (d + 1) * tickCycles s.params ≤ s.regs.fcnt.toNat * tickCycles s.params :=
      Nat.mul_le_mul_right _ (by omega)
    rw [Nat.add_one_mul] at hmore
    omega
  obtain ⟨e, rfl⟩ := Nat.exists_eq_add_of_le hle
  have hk : k = s.pre + e * tickCycles s.params := by
    rw [Nat.add_mul] at hcount
    omega
  rw [hk, Nat.add_mul_div_right _ _ (by omega), Nat.div_eq_of_lt hpre]
  omega

theorem countAfter_of_arms (h : Machine.step s = .next t) (hr : (currentInputs s).rst = false)
    (ha : armsTimer s = true) : CountAfter s.regs.fdur.toNat 0 t := by
  cases (step_of_arms hr ha).symm.trans h
  exact fun _ => rfl

/-- Settles O40: the accepted command starts a pulse of `max(d, 1) * TICK_CYCLES` cycles, in whose run FCNT and PRE count
the cycles; the line is up while cycles are left and the lamp's when none is. -/
theorem flashPulseLastsItsDuration : Obligations.FlashPulseLastsItsDuration := by
  intro s t hp hr ha h hP
  have hrun := runCycles_reaches
    (I := fun k u => TimerEndsIn (max s.regs.fdur.toNat 1 * tickCycles s.params - k) u ∧
      CountAfter s.regs.fdur.toNat k u)
    hP ⟨timerEndsIn_of_arms h hp hr ha, countAfter_of_arms h hr ha⟩
    fun k w w' _ hw hI hs => ⟨hI.1.step hs hw.1 hw.2, hI.2.step hI.1.preLt hs hw.1 hw.2⟩
  refine ⟨fun k hk => ?armed, ?disarmed⟩
  case armed =>
    obtain ⟨u, hu, hT, hC⟩ := hrun k hk.le
    obtain ⟨harmed, hflash⟩ := hT.armed (by omega)
    have hparams : u.params = s.params := (runCycles_params hu).trans (step_params h)
    exact ⟨u, hu, harmed, hflash, hparams ▸ hC.fcnt hT.preLt harmed⟩
  case disarmed =>
    obtain ⟨u, hu, hT, -⟩ := hrun _ le_rfl
    rw [Nat.sub_self] at hT
    exact ⟨u, hu, hT.disarmed⟩

/-! A flash no longer than the hold (R103) -/

/-- While a hold runs without reset, each cycle is free of reset and accepts nothing. -/
theorem HoldEndsIn.undisturbed (hH : HoldEndsIn n t)
    (hP : DuringCycles n t fun u => (currentInputs u).rst = false) :
    DuringCycles n t fun u => (currentInputs u).rst = false ∧ acceptedInstr u = none := by
  intro k hk u hu
  obtain ⟨u', hu', hH'⟩ := hH.run hP k hk.le
  cases hu.symm.trans hu'
  exact ⟨hP k hk u hu, (accepted_of_trig (hH'.held (by omega))).2⟩

/-- A LIGHT_STATE accepted while the timer is disarmed replies the line as it stands (R102). -/
theorem step_lightState_disarmed {x : Word} (hr : (currentInputs s).rst = false)
    (ha : acceptedInstr s = some (.lightState x)) (ht : s.regs.tarm = false) :
    ∃ w, step s = .next w ∧ w.reply = some (flagReply s.regs.flash) := by
  refine ⟨_, step_of_accepted_eq hr ha, ?_⟩
  rw [tickPhase_of_disarmed (s := beginCycle s) ht]
  rfl

/-- Settles O41: inside the hold the port is closed, so the flash runs to its end there with the lamp off. -/
theorem shortFlashIsNeverSeenByTheHost : Obligations.ShortFlashIsNeverSeenByTheHost := by
  intro s t hp hh hr ha hlamp hshort h hP
  have hH := holdEndsIn_of_asserts h hp hh hr (assertsTrigger_of_armsTimer ha)
  have hquiet := hH.undisturbed hP
  have hlampt : t.regs.lamp = false := by cases (step_of_arms hr ha).symm.trans h; exact hlamp
  have hrun := runCycles_reaches
    (I := fun k u => TimerEndsIn (max s.regs.fdur.toNat 1 * tickCycles s.params - k) u ∧ u.regs.lamp = false)
    hquiet ⟨timerEndsIn_of_arms h hp hr ha, hlampt⟩ fun k w w' _ hw hI hs =>
      ⟨hI.1.step hs hw.1 (armsTimer_of_not_accepted hw.2), (step_lamp_of_not_accepted hs hw.1 hw.2).trans hI.2⟩
  refine ⟨fun k u hk hu => acceptedInstr_eq_none_iff.mp (hquiet k hk u hu).2, ?_⟩
  obtain ⟨u, hu, hT, hlampu⟩ := hrun _ le_rfl
  obtain ⟨u', hu', hHu⟩ := hH.run hP _ le_rfl
  cases hu.symm.trans hu'
  rw [Nat.sub_self] at hHu
  rw [Nat.sub_eq_zero_of_le hshort] at hT
  obtain ⟨htarm, -, hflash⟩ := hT.disarmed
  have hdown : u.regs.flash = false := hflash.trans hlampu
  refine ⟨u, hu, hHu.released.1, htarm, hdown, fun x hru hx => ?_⟩
  obtain ⟨w, hw, hreply⟩ := step_lightState_disarmed hru hx htarm
  exact ⟨w, hw, by rw [hreply, hdown]; rfl⟩

end Sys2Proof.Machine
end

section
/-! PROOFS. The end of a run (R206): with nothing more presented both pulses run out, and then nothing changes. -/

namespace Sys2Proof.Machine

variable {s t u : State} {n m : Nat}

theorem currentInputs_of_nil (h : s.inputs = []) : currentInputs s = idlePorts := by
  rw [currentInputs, h, List.headD_nil]

/-- Past the end of its input samples the block sees neither reset nor a request (log 1). -/
theorem idle_of_nil (h : s.inputs = []) : (currentInputs s).rst = false ∧ acceptedInstr s = none := by
  have hin := currentInputs_of_nil h
  exact ⟨by rw [hin]; rfl, acceptedInstr_eq_none_iff.mpr (acceptedRequest_of_not_presented (by rw [hin]; rfl))⟩

theorem runCycles_inputs_nil (hs : s.inputs = []) (h : runCycles n s = .next u) : u.inputs = [] :=
  runCycles_keeps (P := fun _ => True) (I := fun w => w.inputs = [])
    (fun _ _ _ hI hstep => by rw [step_inputs hstep, hI, List.tail_nil]) hs (fun _ _ _ _ => trivial) h

theorem duringCycles_idle (hs : s.inputs = []) (n : Nat) :
    DuringCycles n s fun u => (currentInputs u).rst = false ∧ acceptedInstr u = none :=
  fun _ _ _ hu => idle_of_nil (runCycles_inputs_nil hs hu)

theorem Inv.timerEndsIn (h : Inv s) : TimerEndsIn (timerLeft s) s := ⟨h.preLt, h.flash, h.count, rfl⟩

theorem Inv.holdEndsIn (h : Inv s) : HoldEndsIn (holdLeft s) s := ⟨h.hcntLt, h.hcntZero, rfl⟩

theorem setsDuration_of_not_accepted (h : acceptedInstr s = none) : setsDuration s = false := by
  rw [setsDuration, h]

/-- An idle cycle with both pulses over changes no register and no counter. -/
theorem step_of_quiet (h : step s = .next t) (hr : (currentInputs s).rst = false) (ha : acceptedInstr s = none)
    (htarm : s.regs.tarm = false) (htrig : s.regs.trig = false) : t = beginCycle s := by
  cases (step_of_not_accepted hr ha).symm.trans h
  rw [afterPhases_eq_tickPhase htrig, tickPhase_of_disarmed (s := beginCycle s) htarm]

theorem runCycles_of_quiet (hin : u.inputs = []) (htarm : u.regs.tarm = false) (htrig : u.regs.trig = false)
    (m : Nat) : ∃ w, runCycles m u = .next w ∧ w.regs = u.regs ∧ w.pre = u.pre ∧ w.hcnt = u.hcnt := by
  refine runCycles_reaches (I := fun _ w => w.regs = u.regs ∧ w.pre = u.pre ∧ w.hcnt = u.hcnt)
    (duringCycles_idle hin m) ⟨rfl, rfl, rfl⟩ (fun _ w w' _ hw hI hs => ?_) m le_rfl
  obtain ⟨hregs, hcounters⟩ := hI
  rw [step_of_quiet hs hw.1 hw.2 (hregs ▸ htarm) (hregs ▸ htrig)]
  exact ⟨hregs, hcounters⟩

/-- Where `k` idle cycles lead from `s`: that much less is left of each pulse, LAMP and FDUR stand. -/
structure AfterIdle (s : State) (k : Nat) (w : State) : Prop where
  timer : TimerEndsIn (timerLeft s - k) w
  hold  : HoldEndsIn (holdLeft s - k) w
  lamp  : w.regs.lamp = s.regs.lamp
  fdur  : w.regs.fdur = s.regs.fdur

theorem Inv.afterIdle_zero (h : Inv s) : AfterIdle s 0 s :=
  ⟨h.timerEndsIn, h.holdEndsIn, rfl, rfl⟩

theorem AfterIdle.step (hA : AfterIdle s n t) (h : step t = .next u) (hr : (currentInputs t).rst = false)
    (ha : acceptedInstr t = none) : AfterIdle s (n + 1) u where
  timer := hA.timer.step h hr (armsTimer_of_not_accepted ha)
  hold  := hA.hold.step h hr (assertsTrigger_of_not_accepted ha)
  lamp  := (step_lamp_of_not_accepted h hr ha).trans hA.lamp
  fdur  := (step_keeps_fdur hr (setsDuration_of_not_accepted ha) h).trans hA.fdur

/-- Settles O42: what is left of the longer pulse runs out with LAMP and FDUR untouched; with both over the block is
quiescent, and an idle cycle then changes nothing. -/
theorem quiescenceIsReached : Obligations.QuiescenceIsReached := by
  intro s hI hin
  have hidle := duringCycles_idle hin (max (timerLeft s) (holdLeft s))
  obtain ⟨u, hu, hT, hH, hlamp, hfdur⟩ := runCycles_reaches (I := AfterIdle s) hidle hI.afterIdle_zero
    (fun _ _ _ _ hw hA hs => hA.step hs hw.1 hw.2) _ le_rfl
  rw [Nat.sub_eq_zero_of_le (le_max_left _ _)] at hT
  rw [Nat.sub_eq_zero_of_le (le_max_right _ _)] at hH
  obtain ⟨htarm, hfcnt, hflash⟩ := hT.disarmed
  obtain ⟨htrig, -⟩ := hH.released
  have hinu := runCycles_inputs_nil hin hu
  refine ⟨_, u, max_le_max (timerLeft_le s) (holdLeft_le s), hu, ?quiescent, ?registers, fun m => ?stable⟩
  case quiescent =>
    rw [quiescent, htarm, htrig, currentInputs_of_nil hinu]
    rfl
  case registers =>
    have heta : u.regs = ⟨u.regs.fdur, u.regs.fcnt, u.regs.lamp, u.regs.tarm, u.regs.trig, u.regs.flash⟩ := rfl
    rw [heta, hflash, hlamp, hfdur, hfcnt, htarm, htrig]
  case stable =>
    obtain ⟨w, hw, hsame⟩ := runCycles_of_quiet hinu htarm htrig m
    exact ⟨w, (runCycles_add hu).trans hw, hsame⟩

end Sys2Proof.Machine
end
